-- ==== Sys2Proof/Word.lean ====
section
/-! DEFINITION. The word types of the KZ-6410's descriptors, registers, records and frames (00_scope R5, and the
notation of its Numbers section). -/

namespace Sys2Proof

/-- One byte of an image, a record, a frame or a buffer. -/
abbrev Byte := BitVec 8

/-- A 32-bit word: a set-up register, a descriptor word, a sample word (R108, R336, R488). -/
abbrev Word := BitVec 32

/-- A 64-bit quantity: an epoch ID, a host address, a register pair. -/
abbrev Word64 := BitVec 64

/-- A sparse table keyed by number, in one canonical form: keys strictly rising, and no entry equal to what an
unlisted key reads as. The operations are in Machine/Tbl.lean, which names the unlisted value at every use. -/
abbrev Tbl (α : Type) := List (Nat × α)

end Sys2Proof
end

