-- ==== Sys2Proof/Machine/Bits.lean ====
section
/-! DEFINITION. Byte order, bit fields and sign extension (00_scope R5: every field the manual defines is
little-endian, bit 0 is the least significant bit), and the CRCs the manual names. -/

namespace Sys2Proof.Machine

/-- The number a little-endian byte string stands for (R5). -/
def leNat : List Byte → Nat
  | [] => 0
  | b :: bs => b.toNat + 256 * leNat bs

/-- `n` bytes of `v`, least significant first (R5). -/
def leBytes : Nat → Nat → List Byte
  | 0, _ => []
  | n + 1, v => BitVec.ofNat 8 v :: leBytes n (v / 256)

/-- `n` bytes of `v`, most significant first: what another published standard lays out in its own byte order (R5). -/
def beBytes (n v : Nat) : List Byte := (leBytes n v).reverse

/-- `n` bytes from byte offset `off`. -/
def slice (bs : List Byte) (off n : Nat) : List Byte := (bs.drop off).take n

/-- Unsigned fields of 1, 2, 4, 6 and 8 bytes at an offset. -/
def u8 (bs : List Byte) (off : Nat) : Nat := leNat (slice bs off 1)
def u16 (bs : List Byte) (off : Nat) : Nat := leNat (slice bs off 2)
def u24 (bs : List Byte) (off : Nat) : Nat := leNat (slice bs off 3)
def u32 (bs : List Byte) (off : Nat) : Nat := leNat (slice bs off 4)
def u48 (bs : List Byte) (off : Nat) : Nat := leNat (slice bs off 6)
def u64 (bs : List Byte) (off : Nat) : Nat := leNat (slice bs off 8)

/-- Bits [hi:lo] of a number, inclusive, as the manual writes a bit field. -/
def bits (v hi lo : Nat) : Nat := v / 2 ^ lo % 2 ^ (hi + 1 - lo)

/-- Bit n of a number. -/
def bit (v n : Nat) : Bool := v / 2 ^ n % 2 = 1

/-- 1 for true, 0 for false. -/
def b2n (b : Bool) : Nat := if b then 1 else 0

/-- The value of `w` bits read as two's complement. -/
def sx (w v : Nat) : Int :=
  if v % 2 ^ w < 2 ^ (w - 1) then (v % 2 ^ w : Nat) else ((v % 2 ^ w : Nat) : Int) - 2 ^ w

/-- `w` bits of two's complement of an integer, as a number. -/
def tc (w : Nat) (x : Int) : Nat := (x % (2 ^ w : Int)).toNat

/-- Signed fields of 4 and 8 bytes at an offset. -/
def s32 (bs : List Byte) (off : Nat) : Int := sx 32 (u32 bs off)
def s64 (bs : List Byte) (off : Nat) : Int := sx 64 (u64 bs off)

/-- `f 0, f 1, …, f (n-1)`. -/
def tab {α : Type} (n : Nat) (f : Nat → α) : List α := (List.range n).map f

/-- Field `k` of `w` bits of a packed word. -/
def field (v w k : Nat) : Nat := v / 2 ^ (w * k) % 2 ^ w

/-- A packed word of fields of `w` bits, the first in the low bits. -/
def pack (w : Nat) : List Nat → Nat
  | [] => 0
  | x :: xs => x % 2 ^ w + 2 ^ w * pack w xs

/-- All bytes zero. -/
def allZero (bs : List Byte) : Bool := bs.all (· = 0)

/-- How many bits of the low `n` are set. -/
def popcount : Nat → Nat → Nat
  | 0, _ => 0
  | n + 1, v => v % 2 + popcount n (v / 2)

/-- One bit of a CRC-16 (polynomial 0x1021), most significant bit first. -/
def crc16Bit (c : BitVec 16) : BitVec 16 :=
  if c.getLsbD 15 then (c <<< 1) ^^^ 0x1021#16 else c <<< 1

def crc16Byte (c : BitVec 16) (b : Byte) : BitVec 16 :=
  (List.range 8).foldl (fun c _ => crc16Bit c) (c ^^^ (b.zeroExtend 16 <<< 8))

/-- CRC-16 with polynomial 0x1021 and initial 0xFFFF over bytes in rising offset order (R21). -/
def crc16 (bs : List Byte) : BitVec 16 := bs.foldl crc16Byte 0xFFFF#16

def crc32Bit (c : BitVec 32) : BitVec 32 :=
  if c.getLsbD 0 then (c >>> 1) ^^^ 0xEDB88320#32 else c >>> 1

def crc32Byte (c : BitVec 32) (b : Byte) : BitVec 32 :=
  (List.range 8).foldl (fun c _ => crc32Bit c) (c ^^^ b.zeroExtend 32)

end Sys2Proof.Machine
end

