-- ==== Sys2Proof/Machine/Record.lean ====
section
/-! DEFINITION. What the module records, sends and queues, as plain data: Gust input entries, events, digest entries,
the tick record block and its extension entries (02_the_tick R43 to R47, R59, R60). -/

namespace Sys2Proof.Machine

/-- Gust input entry (R43). -/
structure GustInput where
  opcode : Nat
  targetDev : Nat
  target : Nat
  locDev : Nat
  locInput : Nat
  tag : Nat
  arg : Nat
  reqTick : Nat
deriving DecidableEq, Repr

/-- An event of the module's sequence (R221 to R224, R252): KIND 1 point, 2 group, 3 call, 4 module status. `word` is
the sample-word field (DW4), `dw5` the second detail word of a status event, `aux` BAND and PRIO of a point event. -/
structure Ev where
  kind : Nat
  point : Nat
  old : Nat
  new : Nat
  cause : Nat
  stale : Bool := false
  word : Nat := 0
  dw5 : Nat := 0
  aux : Nat := 0
  tick : Nat := 0
  seq : Nat := 0
  epochSeq : Nat := 0
  catchup : Bool := false
deriving DecidableEq, Repr

/-- A local operator action, KIND 7 (R45, R47); `catchup` that its tick was decided in catch-up (R263). -/
structure Action where
  target : Nat
  opcode : Nat
  targetDev : Nat
  arg : Nat
  locDev : Nat
  locInput : Nat
  ord : Nat
  tick : Nat
  catchup : Bool := false
deriving DecidableEq, Repr

/-- One entry of the queue of R47; a KIND 4 event with a DW5 stands for itself and its KIND 5 continuation (R46). -/
inductive QItem where
  | ev (e : Ev)
  | act (a : Action)
deriving DecidableEq, Repr

/-- A module status event as type 0x0D holds it (R60). -/
structure StatusEv where
  cause : Nat
  modeB : Nat
  modeA : Nat
  dw4 : Nat
  dw5 : Nat
deriving DecidableEq, Repr

/-- A digest entry as received (R45): the event or action, and whether QUEUED was set. -/
structure DigestEntry where
  item : QItem
  queued : Bool
deriving DecidableEq, Repr

/-- Extension entries of a tick record block (R60), in the order applied or received. -/
inductive Ext where
  | input (e : GustInput)
  | remote (i state : Nat)
  | dgrp (g r : Nat)
  | sess (s word : Nat)
  | action (a : Action)
  | digestEntry (dev : Nat) (e : DigestEntry)
  | digestPub (dev slot state : Nat)
  | digestMissing (dev : Nat)
  | placed (e : GustInput)
  | status (e : StatusEv)
  | epoch (cancelled : Bool) (tag id tick : Nat)
deriving DecidableEq, Repr

/-- The tick record block: fixed part (R59) and extension (R60). `supply` and `lamp` hold the packed codes. -/
structure Block where
  tick : Nat := 0
  gustAbsent : Bool := false
  island : Bool := false
  blockLost : Bool := false
  epochFirst : Bool := false
  catchup : Bool := false
  test : Bool := false
  mgrNew : Bool := false
  ckptCopy : Bool := false
  absentCnt : Nat := 0
  epochId : Nat := 0
  samples : List Word := []
  din : Nat := 0
  dcond : Nat := 0
  count : List Nat := []
  mainsFreq : Nat := 0
  rbk : Nat := 0
  lout : List Nat := []
  dout : Nat := 0
  supply : Nat := 0
  lamp : Nat := 0
  ext : List Ext := []
deriving DecidableEq, Repr

/-- Committed half of a point context, bytes 44..63 (R187). PENDING is TIMER > 0. `held` is the class of the source in
the tick last evaluated (R195), which the pipeline hands to the consumers of R210 within that tick. -/
structure PointState where
  rr : Bool := false
  rrefValid : Bool := false
  band : Nat := 0
  rc : Bool := false
  noValue : Bool := false
  supp : Bool := false
  u : Bool := false
  f : Bool := false
  a : Bool := false
  state : Nat := 0
  fcause : Nat := 0
  timer : Nat := 0
  inhCnt : Nat := 0
  shelveRem : Nat := 0
  lastEng : Int := 0
  rateRef : Int := 0
  held : Bool := false
deriving DecidableEq, Repr

/-- State and first-out of a module group or a domain group (R213, R214). -/
structure GroupState where
  state : Nat := 0
  foValid : Bool := false
  foDpid : Nat := 0
  foTick : Nat := 0
deriving DecidableEq, Repr

/-- Session state (R229). `uprev` lists the bound groups whose UNACK was set; `ghist` the ticks of the 8 most recent
changes of GEN, newest first. -/
structure SessState where
  tier : Nat := 0
  gen : Nat := 0
  duty : Nat := 0
  wk : Nat := 0
  tcnt : Nat := 0
  wcnt : Nat := 0
  uprev : List Nat := []
  ghist : List Nat := []
deriving DecidableEq, Repr

/-- Counter snapshot and gate state of one of DIO0..DIO7 (R166 to R168). -/
structure CounterState where
  last : Nat := 0
  lastOk : Bool := false
  delta : Nat := 0
  deltaOk : Bool := false
  start : Nat := 0
  startOk : Bool := false
  bad : Bool := false
  freq : Int := 0
  freqOk : Bool := false
deriving DecidableEq, Repr

/-- Counts and outcome of Table: Low loop voltage for one loop output (R146), the last current staged since the last reset
(R142), and the current commanded in the tick whatever was staged in its place (R144 RESUME_OK), in µA. -/
structure LoutState where
  compCnt : Nat := 0
  failCnt : Nat := 0
  offCnt : Nat := 0
  resumeCnt : Nat := 0
  loopVolt : Bool := false
  off : Bool := false
  lastUa : Option Nat := none
  wantUa : Option Nat := none
deriving DecidableEq, Repr

/-- Selector state of one session on this module (R251). -/
structure SelState where
  value : Nat := 0
  count : Nat := 0
  entered : Option Nat := none
deriving DecidableEq, Repr

/-- An input the manager holds scheduled (R52): its apply tick, whether it came from a ring (with ring and index) or a
digest, whether it is the manager's own mode request (R484), whether it has slipped (LATE), the DEV the command named
and the action tick T_a of R243; `orphan`: taken over with the manager role, it waits for its command to be submitted again
(R282). -/
structure Sched where
  apply : Nat
  own : Bool := false
  ring : Option (Nat × Nat) := none
  order : Nat := 0
  late : Bool := false
  dev : Nat := 0
  orphan : Bool := false
  ta : Nat := 0
  input : GustInput
deriving DecidableEq, Repr

/-- Entry marks of one device (R518): SEQ of the last event applied; tick and ORD of the last action applied; and the MAC
address they belong to. -/
structure Marks where
  mac : Nat := 0
  seq : Option Nat := none
  act : Option (Nat × Nat) := none
deriving DecidableEq, Repr

/-- The committed state of R61: what every decision reads beside the record block and the epoch. -/
structure Dec where
  lastTick : Option Nat := none
  points : Tbl PointState := []
  mgroups : Tbl GroupState := []
  census : List Nat := [0, 0, 0, 0, 0, 0, 0, 0, 0]
  seq : Nat := 0
  pub : Tbl Nat := []
  dgrp : Tbl Nat := []
  sess : Tbl Nat := []
  sil : Tbl Nat := []
  counters : Tbl CounterState := []
  chanHold : Tbl Nat := []
  louts : Tbl LoutState := []
  repLast : Tbl Nat := []
  dioLast : Tbl Nat := []
  prevDin : Nat := 0
  prevDcond : Nat := 0
  prevOk : Bool := false
  sels : Tbl SelState := []
  queue : List QItem := []
  unconf : List (Nat × List QItem) := []
  ordNext : Nat := 0
  moCnt : Nat := 0
  moBack : Nat := 0
  moOwn : Bool := false
  members : Tbl Nat := []
  dgroups : Tbl GroupState := []
  sessions : Tbl SessState := []
  scheds : List Sched := []
  marks : Tbl Marks := []
deriving DecidableEq, Repr

/-- What a call input applied in the action step came to (R242 to R246), kept for Squall's step of the same tick. -/
inductive CallIn where
  | duty (session engineer : Nat)
  | dutyRefused (session : Nat)
  | wkReset (session : Nat)
  | wkRefused (session : Nat)
  | silenced (session : Nat)
  | noMatch (session : Nat)
  | epochReset (session oldTier oldWord : Nat)
  | epochDuty (session oldWord : Nat)
deriving DecidableEq, Repr

/-- What is staged for one loop output: off, or a current in µA (R142). -/
inductive LoutCmd where
  | off
  | ua (x : Nat)
deriving DecidableEq, Repr

/-- What is staged for one DIO output: off, on, a frequency in mHz or a duty of 4 096 (R170, R177, R178). -/
inductive DioCmd where
  | off
  | on
  | freq (mHz : Nat)
  | duty (v : Nat)
deriving DecidableEq, Repr

/-- What is staged for one lamp sink: dark, or lit at a CURRENT code and DUTY (R426, R428). -/
inductive LampCmd where
  | dark
  | lit (current duty : Nat)
deriving DecidableEq, Repr

/-- What the status byte of a window says of a loop output beside its current, as it was staged (R144): an enabled output on
a pin, off under the second row of Table: Low loop voltage, a failure current, and one for LOOP_VOLTAGE. -/
structure LoutMark where
  placed : Bool := false
  prot : Bool := false
  fail : Bool := false
  volt : Bool := false
deriving DecidableEq, Repr

/-- The outputs staged in one Lull for the next edge (R36). -/
structure Staged where
  louts : List LoutCmd := []
  marks : List LoutMark := []
  dio : List DioCmd := []
  lamps : List LampCmd := []
deriving DecidableEq, Repr

/-- One tick being decided: how far EVALUATE and PUBLISH have come, the state it will commit, and what it has raised.
`preps` lists the counter gates (c) and loop outputs (8 + n) already stepped; `evs` the events raised so far, in the
order of R223 and without SEQ. `arm` is the table of published states that Squall takes in a tick in which the manager role
is rolled forward (R277); none: the table applied. -/
structure Work where
  begun : Bool := false
  preps : List Nat := []
  cursor : Nat := 0
  evalDone : Bool := false
  callCursor : Nat := 0
  callBegun : Nat := 0
  pubDone : Bool := false
  shelved : List Nat := []
  callIns : List CallIn := []
  arm : Option (Tbl Nat) := none
  d : Dec := {}
  evs : List Ev := []
deriving DecidableEq, Repr

end Sys2Proof.Machine
end

