-- ==== Sys2Proof/Machine/Wire.lean ====
section
/-! DEFINITION. What crosses the module's edges as plain data: Sprinzet headers (10_domain_network R295), the Gust and
the digest (02_the_tick R41, R44), ring commands (11_host_rings R336) and the identity of a joining module (R312). -/

namespace Sys2Proof.Machine

/-- A received Sprinzet frame's header (R295), with its source address, the payload bytes received, the port it came on, the HSR
sequence number of a tagged one, and its reserved bits: CTL[3:2] from bit 0, and the three bytes after CSEQ of a command or
completion frame from bit 8 (R338). -/
structure Hdr where
  type : Nat
  cls : Nat
  seg : Nat
  dom : Nat
  src : Nat
  dst : Nat
  level : Nat
  tick : Nat
  len : Nat
  rx : Nat
  port : Nat
  sa : Nat := 0
  hsr : Option Nat := none
  rsv : Nat := 0
deriving DecidableEq, Repr

/-- The Gust payload (R41): `pub` lists the published states other than 15, `dgrp` and `sess` the entries other than 0. -/
structure Gust where
  tick : Nat := 0
  fromStandby : Bool := false
  pending : Bool := false
  epochId : Nat := 0
  pendApply : Nat := 0
  digestRx : Nat := 0
  pendId : Nat := 0
  pub : Tbl Nat := []
  dgrp : Tbl Nat := []
  sess : Tbl Nat := []
  inputs : List GustInput := []
deriving DecidableEq, Repr

/-- The digest payload (R44); `pub` lists the slots other than 15. -/
structure Digest where
  dev : Nat := 0
  gustAbsent : Bool := false
  queued : Bool := false
  catchup : Bool := false
  creditRet : Nat := 0
  tick : Nat := 0
  depth : Nat := 0
  epochId : Nat := 0
  pub : Tbl Nat := []
  entries : List DigestEntry := []
deriving DecidableEq, Repr

/-- A command descriptor (R336) as fetched from `ring`: `cls`, `dev` and `op` are the fields of DW0, `apply` the 48-bit
APPLY_TICK, `rsv` and `crc` the halves of DW7. `buf` is what the host's buffer holds when the command reads one.
Log 10: DESIGN CHOICE. -/
structure Cmd where
  ring : Fin 64
  tag : BitVec 16 := 0
  cls : BitVec 2 := 1
  dev : BitVec 6 := 0
  op : BitVec 8
  apply : BitVec 48 := 0
  arg0 : BitVec 16 := 0
  arg1 : Word := 0
  arg2 : Word := 0
  arg3 : Word := 0
  arg4 : Word := 0
  rsv : BitVec 16 := 0
  crc : BitVec 16 := 0
  buf : List Byte := []
deriving DecidableEq, Repr

/-- The join request's content (R312). -/
structure JoinReq where
  mac : Nat
  role : Nat
  dev : Nat
  plMin : Nat
  plMax : Nat
  hwStep : Nat := 0
  fwVer : Nat := 0
  ucVer : Nat := 0
  epochHeld : Nat
  epochStaged : Nat
  caps : Nat := 0
deriving DecidableEq, Repr

/-- The join response's content (Table: Join response). -/
structure JoinResp where
  result : Nat
  dev : Nat
  level : Nat
  admitAt : Nat
  epochId : Nat
deriving DecidableEq, Repr

/-- An abort that awaits its first Gust (R392): ring and index when it came from a ring, TAG, the tick decoded, the tick whose
cut-off may complete that Gust, and whether its named tick had passed. -/
structure Cancel where
  origin : Option (Nat × Nat) := none
  tag : Nat := 0
  at_ : Nat := 0
  from_ : Nat := 0
  late : Bool := false
deriving DecidableEq, Repr

/-- Epoch commit pending at the manager (R388): the epoch, its apply tick, the command to complete (ring, index, TAG),
whether the named tick was missed, whether a Gust has announced it, the tick the command started, and its abort. -/
structure Pend where
  id : Nat
  apply : Nat
  origin : Option (Nat × Nat) := none
  tag : Nat := 0
  late : Bool := false
  announced : Bool := false
  start : Nat := 0
  cancel : Option Cancel := none
deriving DecidableEq, Repr

/-- What the role checkpoint of R275 holds: `macs` lists the manager and the devices admitted, `staged` their staging
confirmations of the pending epoch. -/
structure RoleCkpt where
  tick : Nat
  members : Tbl Nat := []
  dgroups : Tbl GroupState := []
  sessions : Tbl SessState := []
  scheds : List Sched := []
  credits : Tbl (Nat × Nat) := []
  pend : Option Pend := none
  utcOffset : Int := 0
  tref : Word := 0
  marks : Tbl Marks := []
  macs : Tbl Nat := []
  staged : Tbl Nat := []
deriving DecidableEq, Repr

/-- A ring command as a journal frame names it, with its outcome (R275); `gust` marks one planned for a Gust, whose outcome
holds once that Gust is sent. -/
structure JournalCmd where
  ring : Nat
  index : Nat
  tag : Nat
  op : Nat
  dev : Nat
  apply : Nat
  status : Nat
  used : Nat
  a : Nat := 0
  b : Nat := 0
  detail : Nat := 0
  gust : Bool := false
deriving DecidableEq, Repr

/-- A journal frame (R275). -/
structure Journal where
  tick : Nat
  digest : Option Digest := none
  cmds : List JournalCmd := []
  inputs : List GustInput := []
deriving DecidableEq, Repr

/-- The parts of the manager stream (R275). -/
inductive Stream where
  | role (c : RoleCkpt)
  | journal (j : Journal)
deriving DecidableEq, Repr

/-- A bulk frame's payload (R365). -/
structure Bulk where
  op : Nat
  chan : Nat
  xid : Nat
  status : Nat := 0
  addr : Nat := 0
  ofs : Nat := 0
  rlen : Nat := 0
  data : List Byte := []
deriving DecidableEq, Repr

/-- Where a command came from, and so where its completion goes: a ring and index, a command frame's CSEQ (R307), or a
register (R464, R480), which gets none. -/
inductive Origin where
  | ring (r idx : Nat)
  | frame (cseq : Nat)
  | reg
deriving DecidableEq, Repr

/-- A completion's content (R341). -/
structure Compl where
  tag : Nat
  op : Nat
  dev : Nat
  ring : Nat := 0
  index : Nat := 0
  status : Nat
  detail : Nat := 0
  used : Nat
  a : Nat := 0
  b : Nat := 0
deriving DecidableEq, Repr

/-- A frame of this module, or one that its switch forwards to `port`. A Gust leaves as four segments (R297); `redbox` is the
node that supervision frames announce (R293), and `correction` the field that a transparent clock updates (R302). -/
inductive Frame where
  | gust (seg : Nat) (g : Gust)
  | digest (d : Digest)
  | command (dev cseq : Nat) (c : Cmd)
  | completion (cseq : Nat) (c : Compl)
  | joinRequest (r : JoinReq)
  | joinResponse (mac : Nat) (r : JoinResp)
  | status (src : Nat) (block : List Byte)
  | stream (x : Stream)
  | bulk (dev : Nat) (b : Bulk)
  | ptpSync (port : Nat) (correction : Int)
  | ptpAnnounce (port prio1 prio2 domain clockClass : Nat)
  | pdelayReq (port : Nat)
  | supervision (port : Nat) (redbox : Option Nat)
  | forward (port seq : Nat) (correction : Option Int)
deriving DecidableEq, Repr

/-- A frame on its way out of the switch: class, bytes from destination address to FCS, and the port (2: both ring ports). -/
structure Held where
  cls : Nat
  len : Nat
  port : Nat
  frame : Frame
  /-- A frame of the manager stream. -/
  stream : Bool := false
deriving DecidableEq, Repr

end Sys2Proof.Machine
end

