-- ==== Sys2Proof/Machine/Window.lean ====
section
/-! DEFINITION. What the plant shows the module in one sampling window, as the operand of an edge: readings, not
decisions. What the module makes of them is in Machine/Field.lean. -/

namespace Sys2Proof.Machine

/-- One cell's window (R95): the conversions of the selected and of the other quantiser on the common scale of tag 5
counts, each as runs of equal conversions (how many, value) from cycle 0 on, zero after the last; the interim values in
which the quantiser that a swap re-gained had passed its FS; a common-mode excursion (R98); and how much of each
quantiser's weighted mean is bus pick-up within the notch bands (R114). Log 100: DESIGN CHOICE. -/
structure CellObs where
  prim : List (Nat × Int) := []
  shad : List (Nat × Int) := []
  clipped : BitVec 8 := 0
  commonMode : Bool := false
  pickup : Int := 0
  pickupS : Int := 0
deriving DecidableEq, Repr

/-- One DIO channel's window: changes of the input reading as (SAMPLE cycle, mV on a plain input or µA under SENSE), the
pin at the edge in mV; and over the last 500 µs the highest load current in µA while on, the lowest pin voltage in mV while
off, and whether the current limit was reached (R173). -/
structure DioObs where
  changes : List (Nat × Int) := []
  pinMv : Int := 0
  loadUa : Nat := 0
  offMv : Int := 0
  limit : Bool := false
deriving DecidableEq, Repr

/-- One loop output's window (R144, R145): at its compliance limit, the measured current, and the pin voltage. -/
structure LoutObs where
  compliance : Bool := false
  ua : Nat := 0
  pinMv : Nat := 0
deriving DecidableEq, Repr

/-- The bus reference (R112, R114, R508): a positive zero crossing in the last 50 ticks, the four most recent full periods in ns with
the amplitude of each in mV rms, and how fast its frequency changes, in mHz/s. -/
structure MainsObs where
  crossing : Bool := false
  periods : List (Nat × Nat) := []
  rate : Nat := 0
deriving DecidableEq, Repr

/-- One sampling window as it reaches the swap. `complete` is false for a sample block that is incomplete (R14); `strobe` says that the
tick strobe of its closing edge reached the field side (R13). `iexc` and `vexc` are the sources at compliance or current
limit at any time in it (R76), `lsw` the loop-supply switches in current limit throughout it (R133); `lp` the window means
of LP0..LP3 and LSUP in mV (R183); `lampUa` and `lampMv` the current and the pin voltage of the lamp sinks over
the on-time that counts (R426, R429); `feedMv` VIN_A and VIN_B in
mV; `regulated` is false where the field converter was out of regulation (R185); `stuck` lists the pairs that failed the readback
of a break made other than at an epoch switch (R80, R81). Log 98: DEDUCED. -/
structure Window where
  complete : Bool := true
  strobe : Bool := true
  cells : Tbl CellObs := []
  iexc : BitVec 16 := 0
  vexc : BitVec 4 := 0
  lsw : BitVec 32 := 0
  dio : Tbl DioObs := []
  lout : Tbl LoutObs := []
  lp : List Nat := [24000, 24000, 24000, 24000, 24000]
  mains : MainsObs := {}
  lampUa : List Nat := []
  lampMv : List Nat := []
  feedMv : List Nat := []
  regulated : Bool := true
  stuck : List (Nat × Nat) := []
deriving DecidableEq, Repr

/-- A correction field on its way through the switch (R302): as received, in 2⁻¹⁶ ns, and the ns the frame spends there. -/
structure Passage where
  received : Int := 0
  ns : Int := 0
deriving DecidableEq, Repr

/-- The correction that leaves, with the mean link delay of the port it came on in ns. -/
def Passage.leaves (x : Passage) (delayNs : Nat) : Int := x.received + 65536 * (x.ns + delayNs)

/-- A Sync at a port (R293, R302): its source address, its sequence number, and its correction with the residence time. -/
structure SyncHop where
  src : Nat
  seq : BitVec 16
  pass : Passage := {}
deriving DecidableEq, Repr

/-- How a frame passes the switch (R293, R297, R299, R302, R485): the µs of the cycle at which it is at the port, for segment 0 of a
Gust its correction, whether it carries an HSR tag, and whether it is one of the manager stream. -/
structure Transit where
  us : Nat := 0
  passage : Option Passage := none
  tagged : Bool := true
  stream : Bool := false
deriving DecidableEq, Repr

/-- A supervision frame: the node it announces, and whether it comes from the link partner itself (R293, R311). -/
structure Supervision where
  mac : Nat
  partner : Bool := true
deriving DecidableEq, Repr

/-- A block that a store reads back (R375, R376): its address, its 32 data and 8 check bytes, and whether it is read in
detect-only mode. -/
structure BadBlock where
  addr : BitVec 32
  block : List (BitVec 8) := []
  detectOnly : Bool := false
deriving DecidableEq, Repr

/-- An external low on RESET_N (R460, R511): how many ns it has lasted, whether it still lasts, and the µs from the module's release
of the line to its beginning. -/
structure LowPulse where
  ns : Nat
  lasts : Bool := false
  us : Nat := 100
deriving DecidableEq, Repr

/-- A pin's survey measurements (R91, R93): open-circuit mV, resistance in 10 mΩ (none above 10 MΩ), capacitance in pF
when measured, insulation in kΩ (none above 100 MΩ) when step 4 ran, and LSUP in mV when its step 4 was due. -/
structure PinSurvey where
  pin : Nat
  vocMv : Int := 0
  r10m : Option Nat := none
  cPf : Option Nat := none
  ins : Option (Option Nat) := none
  lsupMv : Nat := 24000
deriving DecidableEq, Repr

/-- What makes the field side switch outputs off (R172): a channel in current limit for so many µs without a break, its
thermal shutdown, or a bank whose current sum has been above 2.0 A for so many µs, with the current of each of its eight
channels in mA. -/
inductive Overload where
  | limit (chan : Fin 32) (us : Nat)
  | thermal (chan : Fin 32)
  | bank (b : Fin 4) (us : Nat) (ma : List Nat)
deriving DecidableEq, Repr

/-- What a host access is to (R320, R324): BAR0, BAR2 or the configuration space. -/
inductive PciSpace where
  | bar0 | bar2 | cfg
deriving DecidableEq, Repr

/-- What makes a lamp sink protect itself (R426): its current and pin voltage, and for how long their product has stood. -/
structure LampHeat where
  lamp : Fin 16
  ua : Nat
  mv : Nat
  us : Nat
deriving DecidableEq, Repr

/-- Above 150 mW for 2 ms. -/
def LampHeat.sheds (x : LampHeat) : Bool := 150000000 < x.ua * x.mv && 2000 ≤ x.us

/-- A pair's survey measurements (R91, R93): resistance in both polarities in 10 mΩ (none above 10 MΩ), capacitance,
open-circuit voltage in 10 µV, the NAMUR test current in µA, and the currents at 16 V and 24 V in µA, signed out of
PIN_A, when step 8 ran. -/
structure PairSurvey where
  a : Nat
  b : Nat
  rFwd : Option Nat := none
  rRev : Option Nat := none
  cPf : Option Nat := none
  voc10u : Int := 0
  namurUa : Option Nat := none
  i16 : Int := 0
  i24 : Option Int := none
  levelNonlinear : Bool := false
deriving DecidableEq, Repr

/-- The outcome of checking a flash or boot image: what its header says and what verification found (R472). `sig` and
`hash` are the outcomes of verifying the bytes, `empty` an erased slot. -/
structure BImage where
  empty : Bool := true
  part : Nat := 0
  version : Nat := 0
  peerMin : Nat := 0
  peerMax : Nat := 0
  stepMin : Nat := 0
  stepMax : Nat := 0
  plMin : Nat := 0
  plMax : Nat := 0
  sig : Bool := true
  hash : Bool := true
deriving DecidableEq, Repr

/-- The fields of an option block (R468). -/
structure OptBlock where
  seq : BitVec 16 := 0
  setB : Bool := false
  dbgOpen : Bool := false
  prefB : Bool := false
  devNum : BitVec 8 := 2
  domain : BitVec 16 := 1
  level : BitVec 16 := 1
deriving DecidableEq, Repr

/-- Bytes 0..61 of Table: Option block, with the MAGIC of a copy or of the override (R468, R469). -/
def optBytes (magic : Nat) (o : OptBlock) : List Byte :=
  leBytes 4 magic ++ leBytes 2 1 ++ leBytes 2 o.seq.toNat ++ leBytes 1 (b2n o.setB) ++ leBytes 1 (b2n o.dbgOpen)
    ++ leBytes 1 (b2n o.prefB) ++ leBytes 1 o.devNum.toNat ++ leBytes 2 o.domain.toNat ++ leBytes 2 o.level.toNat ++ leBytes 46 0

/-- A block of 64 bytes as it stands in flash. -/
def encOpt (magic : Nat) (o : OptBlock) : List Byte := optBytes magic o ++ leBytes 2 (crc16 (optBytes magic o)).toNat

/-- A block read back: valid when its MAGIC, FORMAT and CRC hold (R468). -/
def readOpt (magic : Nat) (b : List Byte) : Option OptBlock :=
  if b.length ≠ 64 || u32 b 0 ≠ magic || u16 b 4 ≠ 1 || u16 b 62 ≠ (crc16 (b.take 62)).toNat then none
  else some { seq := BitVec.ofNat 16 (u16 b 6), setB := bit (u8 b 8) 0, dbgOpen := bit (u8 b 9) 0, prefB := bit (u8 b 10) 0,
              devNum := BitVec.ofNat 8 (u8 b 11), domain := BitVec.ofNat 16 (u16 b 12), level := BitVec.ofNat 16 (u16 b 14) }

/-- MAGIC of an option block and of the override block (R468, R469). -/
def optMagic : Nat := 0x4F50545A
def overrideMagic : Nat := 0x4F56525A

/-- Stores of Table: Store codes (R378), with what the working store and the SRAM hold told apart as Table:
Uncorrectable store errors does. -/
inductive Store where
  | record (tick : Nat)
  | checkpoint (tick : Nat)
  | ringState
  | queueEntry
  | streamRole
  | panelPlane (panel : Fin 2)
  | dmaWindow (chan : Fin 16)
  | firmware
  | pointContext (p : Fin 1024)
  | enginePrivate
  | option (copy : Fin 2)
  | powerFail (area : Fin 2)
  | image (slot : Fin 4)
  | config (slot : Fin 8)
  | panelRecord (panel slot : Fin 2)
  | eventStore
  | decimated
  | reserve
deriving DecidableEq, Repr

/-- The code of a store in DW4 of STORE_ERROR and LAST_STORE (Table: Store codes). -/
def Store.code : Store → Nat
  | .record _ => 1
  | .checkpoint _ | .ringState | .queueEntry | .streamRole | .panelPlane _ | .dmaWindow _ | .firmware => 2
  | .pointContext _ | .enginePrivate => 3
  | .option _ => 4
  | .powerFail _ => 5
  | .image _ => 6
  | .config _ => 7
  | .panelRecord _ _ => 8
  | .eventStore => 9
  | .decimated => 10
  | .reserve => 11

/-- A store in flash (R368). -/
def Store.inFlash : Store → Bool
  | .option _ | .powerFail _ | .image _ | .config _ | .panelRecord _ _ | .eventStore | .decimated => true
  | _ => false

/-- A pass of the scrubber (R377): 0 SRAM, 1 DRAM, 2 flash, with the blocks that it found wrong. -/
structure Scrub where
  which : Fin 3
  found : List (Store × BadBlock) := []
deriving DecidableEq, Repr

end Sys2Proof.Machine
end

