-- ==== Sys2Proof/Syntax.lean ====
section
/-! DEFINITION. The commands: one constructor per row of spec/opcode_table.json, in the table's order. A command's
operands are what its happening carries from outside: a frame, a descriptor, a register value, a measurement. -/

namespace Sys2Proof

open Sys2Proof.Machine

/-- Log 96: DESIGN CHOICE. -/
inductive Instr where
  | tickEdge (w : Window)
  | evaluatePhase
  | publishPhase
  /-- `diffMs` is the phase difference against the selected reference, in ms (R30). -/
  | lullPhase (diffMs : Int)
  | checkpointWrite
  | gustDeadline
  | digestCutoff
  | devLeft (dev : Fin 64)
  | islandEntry
  | islandRejoin
  /-- `stuck` lists the pin pairs whose switch failed its open readback (R80). -/
  | epochSwitch (stuck : List (Fin 64 × Fin 64))
  /-- `stuck` as in EPOCH_SWITCH, for an epoch that takes force with the admission. -/
  | admissionTick
  | managerListenEnd
  | servingStart
  | modeReqApply
  | blackoutRequest
  | blackoutExitRequest
  /-- A segment with its payload and the local domain time of its timestamp point in ns (R297, R304). -/
  | gustSegment (h : Hdr) (payload : List Byte) (localNs : Int)
  | digestReceive (h : Hdr) (payload : List Byte)
  /-- `cseq` and the forwarded descriptor (R307, R338). -/
  | commandFrame (h : Hdr) (cseq : BitVec 8) (c : Cmd)
  | completionFrame (h : Hdr) (cseq : BitVec 8) (c : Compl)
  | commandResend (dev : Fin 64) (cseq : BitVec 8)
  | commandCompletionTimeout (dev : Fin 64) (cseq : BitVec 8)
  | joinRequestSend
  | joinRequest (h : Hdr) (r : JoinReq)
  | joinResponse (h : Hdr) (r : JoinResp)
  | statusFrameSend
  | statusFrame (h : Hdr) (block : List Byte)
  | managerStream (h : Hdr) (x : Stream)
  | bulkFrame (h : Hdr) (b : Bulk)
  | bulkRetry (chan : Fin 16)
  | managerLost
  /-- A Sync from a master, with its PTP domain and the offset it shows in ns. -/
  | ptpSyncReceive (port : Fin 2) (x : SyncHop) (domain : BitVec 8) (master : Nat) (offsetNs : Int)
  /-- An Announce: its PTP domain, the data set the best master clock algorithm compares, and currentUtcOffset in s. -/
  | ptpAnnounceReceive (port : Fin 2) (domain : BitVec 8) (dataset : Nat) (master : Nat) (utcOffset : Int)
  /-- One Pdelay exchange's result in ns. -/
  | pdelayExchange (port : Fin 2) (delayNs : Nat)
  | ptpMasterSend (announce : Bool)
  | hsrSupervisionSend
  | supervisionFrame (port : Fin 2) (x : Supervision)
  /-- A frame on a port: source, HSR sequence, class, addressed only to this node, length, the µs of the tick at which it has
  come in whole, for segment 0 of a Gust its correction (R302), and whether it is tagged. -/
  | frameForward (port : Fin 2) (src : Nat) (seq : BitVec 16) (cls : BitVec 2) (own : Bool) (len : Nat) (transit : Transit)
  /-- Autonegotiation's outcome: 1000BASE-T or 100BASE-TX, MASTER, pair swap, polarity (R289, R311). -/
  | linkUp (port : Fin 2) (gig master swap pol : Bool)
  | linkDown (port : Fin 2)
  | hsrPartnerTimeout (port : Fin 2)
  | cableTest (port : Fin 2)
  /-- The four pairs as (STATUS, DIST) (R310). -/
  | cableTestDone (port : Fin 2) (pairs : List (BitVec 4 × BitVec 16))
  | timeRefChange (valid : Bool)
  | timeAlign
  | tickOverrun
  /-- What starts the takeover under R259, in the tick in progress: 0 private state or context error, 1 census failure,
  2 overrun, 3 forced. -/
  | rowanTakeover (cause : Fin 4)
  | catchupComplete
  | engineSelftestDone (b : Bool) (pass : Bool)
  /-- `sound`: the engine itself computes as it must. -/
  | engineResync (b : Bool) (sound : Bool)
  | auditStart
  /-- The first tick at which the auditing engine itself computes wrongly, none for a sound engine (R270). -/
  | auditEnd (unsound : Option Nat)
  /-- A normal read of a block by other than the scrubber: its address, and its 32 data bytes and 8 check bytes as the memory gave them
  (R376). -/
  | eccCorrected (x : Store) (b : BadBlock)
  /-- The address, the bytes of the block as the memory gave them, and whether they were read in detect-only mode; flash's
  reserve has no block. -/
  | uncorrectableError (x : Store) (b : BadBlock)
  | scrubPass (x : Scrub)
  | eventPageFlush
  | seqReservation (verified : Bool)
  | por
  | resetN (p : LowPulse)
  | heartbeat
  /-- The four strap ratios in ‰, and whether PE_PERST_N is high. -/
  | resetRelease (ratios : List Nat) (perstHigh : Bool)
  /-- Self-test outcomes of Rowan A and Rowan B, and the inductances measured at SWP_B and SWN_B, in nH. -/
  | bootDone (pass : Bool × Bool) (coils : Nat × Nat)
  | vinLost (b : Bool) (mv : Nat)
  | vinRestored (b : Bool) (mv : Nat)
  | powerFail (mvA mvB : Nat)
  | powerFailAreaDone
  | vbatApplied (mv : Nat)
  | backupDomainStart
  /-- 0 PE_PERST_N low, 1 Function Level Reset, 2 D3hot, 3 loss of link. -/
  | hifReset (cause : Fin 4)
  /-- `reset`: the isolated converter fell out of regulation and the field side reset (R185). -/
  | barrierLinkLoss
  | barrierLinkRestore
  | rangeDown (cell : Fin 64)
  | seamEnd (cell : Fin 64)
  | crossCheckFail (cell : Fin 64)
  | settlingEnd (cell : Fin 64)
  | lswLimit (sw : Fin 32)
  | lswReclose (sw : Fin 32)
  | loopVoltage (out : Fin 8)
  | loutOffProt (out : Fin 8)
  | loutRetry (out : Fin 8)
  | loutResume (out : Fin 8)
  | dioProtectionOff (x : Overload)
  | dioRedrive (chan : Fin 32)
  /-- t_d in µs, I_on in mA and V_LP in mV (R175). -/
  | demagMeasure (chan : Fin 32) (tdUs ionMa vlpMv : Nat) (up : Bool)
  | lampProtectionOff (x : LampHeat)
  | lampRedrive (lamp : Fin 16)
  | onDelayExpiry (p : Fin 1024)
  | offDelayExpiry (p : Fin 1024)
  | inhibitRelease (p : Fin 1024)
  | shelveExpired (p : Fin 1024)
  | rateWindowEnd (p : Fin 1024)
  | freqGateEnd (chan : Fin 8)
  | escalate (session : Fin 64)
  | wkPrewarn (session : Fin 64)
  | wkCall (session : Fin 64)
  /-- A keyed DIO channel, or a panel area with LOC_INPUT 32 + a. -/
  | keyPress (chan : Fin 32)
  | selectorSettle (session : Fin 64)
  | doorbell (ring : Fin 64) (upper : Bool) (x : Word)
  | ringEnable (ring : Fin 64) (cfg : Word)
  | ringDisable (ring : Fin 64) (cfg : Word)
  | msixMessage (ring : Fin 64)
  | completionRelease (ring : Fin 64)
  | eventWriteResume (ring : Fin 64)
  | nop (c : Cmd)
  | modeReq (c : Cmd)
  | statusGet (c : Cmd)
  | cfgStage (c : Cmd)
  | cfgCommit (c : Cmd)
  | cfgAbort (c : Cmd)
  | ack (c : Cmd)
  | silence (c : Cmd)
  | shelve (c : Cmd)
  | unshelve (c : Cmd)
  | oosSet (c : Cmd)
  | oosClear (c : Cmd)
  | dutySelect (c : Cmd)
  | survey (c : Cmd)
  | surveyDone (pins : List PinSurvey) (pairs : List PairSurvey)
  | leadMeasure (c : Cmd)
  | leadMeasureDone (unfit : BitVec 16) (pick : Fin 3)
  | panelUpdate (c : Cmd)
  | panelClear (c : Cmd)
  | lampTest (c : Cmd)
  | lampTestEnd
  | dmaStart (c : Cmd)
  /-- `data` are the bytes the channel has read since it last stood still, `wr` how many it has written (R359). -/
  | dmaPause (c : Cmd) (data : List Byte) (wr : Nat)
  | dmaResume (c : Cmd)
  | recPull (c : Cmd)
  | evtReread (c : Cmd)
  | imgStage (c : Cmd)
  | imgActivate (c : Cmd)
  | auditNow (c : Cmd)
  | blockReset (c : Cmd)
  /-- Whether the block went idle by its timeout. -/
  | blockResetDone (idle : Bool)
  | dmaChStart (chan : Fin 16) (ctl : Word)
  | dmaChAbort (chan : Fin 16) (ctl : Word) (data : List Byte) (wr : Nat)
  | dmaChPauseSet (chan : Fin 16) (ctl : Word) (data : List Byte) (wr : Nat)
  | dmaChPauseClear (chan : Fin 16) (ctl : Word) (data : List Byte) (wr : Nat)
  | dmaDrainDone (chan : Fin 16)
  /-- The bytes the source gave from where the channel stood. -/
  | dmaTransferDone (chan : Fin 16) (data : List Byte)
  /-- The bytes read before the failure, and ERR 1 to 3. -/
  | dmaReadFailure (chan : Fin 16) (data : List Byte) (err : Fin 3)
  | sysModeReq (v : Word)
  | rstBlock (v : Word)
  | tickUtcOffsetWrite (v : Word)
  | rtcCntWrite (v : Word)
  | rtcCmpWrite (v : Word)
  | rtcHaltSet (v : Word)
  | rtcHaltClear (v : Word)
  | rtcCmpEnSet (v : Word)
  | rtcMeasSrcWrite (v : Word)
  | rtcWakeWrite (v : Word)
  | rtcTrimWrite (v : Word)
  | rtcPwronWrite (v : Word)
  | rtcCntLRead
  | rtcCal1Read
  | rtcShadowTimeout
  | tickNumLRead
  | domAdmitLRead
  | netCtReq (v : Word)
  | domTrefWrite (v : Word)
  | secDbgVerify (v : Word)
  /-- A write to a register of a pair without its own row, by BAR0 offset. -/
  | regPairWrite (off : BitVec 16) (v : Word)
  /-- A host access: space, offset, width in bytes, write or read, value. -/
  | registerWrite (space : PciSpace) (off : BitVec 16) (width : Fin 9) (write : Bool) (v : Word)
  /-- The rails in mV at the frame start: VGH, VGL, VPOS, VNEG. -/
  | panelFrame (panel : Fin 2) (rails : List Int)
  | panelOperationStart (panel : Fin 2)
  | railCheck (panel : Fin 2) (rails : List Int)
  | panelOperationEnd (panel : Fin 2)
  | railHoldExpiry (panel : Fin 2)
  | holdRefreshDue (panel : Fin 2)
  /-- The CRC recomputed over the old plane as memory now holds it. -/
  | panelCrcRecheck (panel : Fin 2) (upset : List (Nat × Byte))
  | pageCompose (panel : Fin 2)
  | panelRecovery (panel : Fin 2)
  | rtcCompareFire
  | rtcWakeFire
  | oscStop
  /-- An instant of a trim reference, numbered as MEAS_SRC; whether the gate in progress has lasted its 1 024 s. -/
  | trimGateEnd (src : Fin 4) (ends : Bool)
  | vbatLowCheck (mv : Nat)
  | workerRtcSync
  | optGet
  | optSetDev (n : Nat)
  | optSetDomain (h : Nat)
  | optSetLevel (n : Nat)
  | optSetSrcset (setB : Bool)
  | optSetSlot (slotB : Bool)
  | optSetDbg (open_ : Bool)
  | optWrite
  | rangeUp (cell : Fin 64) (loss : Bool)
  | vbatLoss
  | pePerstNRelease
  /-- Rising edge on PPS_IO: µs since the previous one, and the phase difference in ms. -/
  | ppsIoInputPulse (us : Nat) (diffMs : Int)
  /-- Rising edge on TICK_IO: ns since the previous one. -/
  | tickIoInputPulse (ns : Nat)
  | hsrRingOpen (port : Fin 2)
  | panelRailRetry (panel : Fin 2)
  | barrierLinkStable
deriving DecidableEq, Repr

end Sys2Proof
end

