-- ==== Sys2Proof/Decode.lean ====
section
/-! DEFINITION. What a word of spec/opcode_table.json spells. The table gives no row bits: a command comes to this block as a
happening with its operands, never as an encoded word. -/

namespace Sys2Proof

/-- No row of the table has an encoding, so no word spells a command. Log 1: DESIGN CHOICE. -/
def decodeTableWord (_nbits _w : Nat) : Option Instr := none

end Sys2Proof
end

