-- ==== Sys2Proof/Machine/Epoch.lean ====
section
/-! DEFINITION. What a configuration image says, as plain data: one structure per section of Table: Section types
(13_configuration_epochs R380), with the field names of the chapter that defines the section. Reserved bits do not
appear: a staged image with one set is rejected (R7, R384). -/

namespace Sys2Proof.Machine

/-- Pin entry (R71). -/
structure PinEntry where
  srcKind : Nat := 0
  srcIndex : Nat := 0
  burPresent : Bool := false
  burLow : Bool := false
  burIndex : Nat := 0
  gndTie : Bool := false
deriving DecidableEq, Repr

/-- Cell route entry (R72). An unrouted cell has P_PIN and N_PIN 0xFF. -/
structure CellRoute where
  pPin : Nat := 0xFF
  nPin : Nat := 0xFF
  leadMode : Nat := 0
  leadCell : Nat := 0
  leadMohm : Nat := 0
  excSrc : Nat := 0xFF
deriving DecidableEq, Repr

/-- VEXC setting (R73). -/
structure Vexc where
  ilimMa : Nat := 0
  voltMv : Nat := 0
deriving DecidableEq, Repr

/-- BIAS setting (R73). -/
structure Bias where
  rser10M : Bool := false
  level : Nat := 0
deriving DecidableEq, Repr

/-- Burden setting (R73). -/
structure Burden where
  loToGnd : Bool := false
  is250 : Bool := false
deriving DecidableEq, Repr

/-- Route section (R70). -/
structure Route where
  pins : List PinEntry := []
  cells : List CellRoute := []
  iexc : List Nat := []
  vexc : List Vexc := []
  bias : List Bias := []
  burden : List Burden := []
deriving DecidableEq, Repr

/-- A switch of the crosspoint, closed for a role of its pin (R69). -/
inductive Switch where
  | sense (pin cell : Nat) (neg : Bool)
  | source (pin kind index : Nat)
  | burden (pin index : Nat) (low : Bool)
  | tie (pin : Nat)
deriving DecidableEq, Repr

/-- A switch that failed its open readback (R80): the two pins it joins, the same twice for one of a pin alone, and which switches on
them that break had opened. -/
structure Stuck where
  a : Nat
  b : Nat
  sw : List Switch := []
deriving DecidableEq, Repr

/-- Cell setting (R116). -/
structure CellSetting where
  mode : Nat := 0
  notchOff : Bool := false
  tag : Nat := 0
deriving DecidableEq, Repr

/-- Cell section (R115). -/
structure CellSec where
  cells : List CellSetting := []
  nominal60 : Bool := false
  track : Bool := false
  cjc : List Nat := []
deriving DecidableEq, Repr

/-- One segment of a polynomial block (R127). -/
structure Seg where
  w : Nat
  c0 : Int
  c1 : Int
  c2 : Int
  c3 : Int
deriving DecidableEq, Repr

/-- A polynomial block (R127). -/
structure Poly where
  xBase : Int
  g : Nat
  segs : List Seg
deriving DecidableEq, Repr

/-- Body of a characteristic (R124 to R128). -/
inductive CharBody where
  | linear (m b : Int) (s : Nat)
  | sqrt (x0 xspan : Int) (qcut : Nat) (e0 espan : Int)
  | table (rows : List (Int × Int))
  | poly (a : Poly)
  | thermo (a b : Poly)
deriving DecidableEq, Repr

/-- A characteristic record (R123). -/
structure Characteristic where
  type : Nat
  input : Nat
  subtype : Nat := 0
  cjcCell : Nat := 0xFF
  cjcChar : Nat := 0
  engMin : Int
  engMax : Int
  body : CharBody
deriving DecidableEq, Repr

/-- Loop-output setting (R141). -/
structure LoopOut where
  enable : Bool := false
  failUp : Bool := false
  safe : Nat := 0
  point : Nat := 0
  eLo : Int := 0
  eHi : Int := 0
  supPoint : Nat := 0
deriving DecidableEq, Repr

/-- Loop section (R141). -/
structure LoopSec where
  ne43 : List Bool := []
  outs : List LoopOut := []
deriving DecidableEq, Repr

/-- DIO channel setting (R154). -/
structure DioChan where
  pulseCatch : Bool := false
  sense : Nat := 0
  type3 : Bool := false
  dir : Nat := 0
  countEdge : Nat := 0
  debounceUs : Nat := 0
  olOff : Bool := false
  pwroffHold : Bool := false
  safe : Nat := 0
  invert : Bool := false
  outSrc : Nat := 0
  point : Nat := 0
  stateMask : Nat := 0
  gateTicks : Nat := 0
deriving DecidableEq, Repr

/-- DIO repeat setting (R155). -/
structure Repeat where
  eLo : Int := 0
  eHi : Int := 0
  fLo : Nat := 0
  fHi : Nat := 0
  fFail : Nat := 0
deriving DecidableEq, Repr

/-- DIO section (R153); `reps` holds the settings of DIO24..DIO31. -/
structure DioSec where
  chans : List DioChan := []
  reps : List Repeat := []
deriving DecidableEq, Repr

/-- Configuration half of a point context, bytes 0..43 (R187); `mgrp` and `dgrp` are (VALID, group). -/
structure PointCfg where
  cond : Nat := 0
  srcKind : Nat := 0
  char : Nat := 0
  srcRef : Nat := 0
  param : Nat := 0
  charEn : Bool := false
  inhKind : Nat := 0
  inhFault : Bool := false
  inhInv : Bool := false
  noack : Bool := false
  prio : Nat := 0
  inhRef : Nat := 0
  ackMask : Nat := 0
  limHi : Int := 0
  limLo : Int := 0
  deadband : Nat := 0
  onDelay : Nat := 0
  offDelay : Nat := 0
  inhDelay : Nat := 0
  mgrp : List (Bool × Nat) := []
  dgrp : List (Bool × Nat) := []
deriving DecidableEq, Repr

/-- A valid location table entry (R191), with its place in the table. -/
structure LocEntry where
  dev : Nat
  input : Nat
  cls : Nat
  idx : Nat := 0
deriving DecidableEq, Repr

/-- Point section (R191): points listed are those whose entry is not all zeros; an unlisted point is unconfigured. -/
structure PointSec where
  points : Tbl PointCfg := []
  publish : List (Option Nat) := []
  locs : List LocEntry := []
deriving DecidableEq, Repr

/-- A domain group section entry (R217). -/
structure Member where
  dpid : Nat
  group : Nat
  prio : Nat
deriving DecidableEq, Repr

/-- Session entry (R231). -/
structure SessionCfg where
  dutyInit : Nat := 0
  wkEn : Bool := false
  ntiers : Nat := 0
  enable : Bool := false
  follow : Bool := false
  dutyFrom : Nat := 0
  wkArmRef : Nat := 0
  timeouts : List Nat := []
  wkT1 : Nat := 0
  wkT2 : Nat := 0
  wkResetMask : Nat := 0
  dutyMaskClass : Nat := 0
deriving DecidableEq, Repr

/-- Binding entry (R232). -/
structure Binding where
  group : Nat
  session : Nat
  prioMask : Nat
deriving DecidableEq, Repr

/-- Destination entry (R233). -/
structure Dest where
  dev : Nat
  prewarn : Bool
  audible : Bool
  kind : Nat
  index : Nat
  pattern : Nat
  tierMask : Nat
  dutyMask : Nat
  session : Nat
  zone : Nat
deriving DecidableEq, Repr

/-- Silence map entry (R234). -/
structure SilEntry where
  dev : Nat
  input : Nat
  zones : Nat
deriving DecidableEq, Repr

/-- Key entry (R235). -/
structure KeyEntry where
  dev : Nat
  chan : Nat
  func : Nat
  target : Nat
deriving DecidableEq, Repr

/-- Call section (R230). -/
structure CallSec where
  sessions : Tbl SessionCfg := []
  binds : List Binding := []
  dests : List Dest := []
  sils : List SilEntry := []
  keys : List KeyEntry := []
deriving DecidableEq, Repr

/-- Redundancy section (R269). -/
structure RedSec where
  auditPeriod : Nat := 3600000
  auditPhase : Nat := 0
deriving DecidableEq, Repr

/-- Panel setting (R401). -/
structure PanelSet where
  present : Bool := false
  builtin : Bool := false
  inv : Nat := 0
  width : Nat := 0
  height : Nat := 0
  tableId : Nat := 0
  tableOfs : Nat := 0
  holdPeriod : Nat := 0
  bandValid : Bool := false
  bandPoint : Nat := 0
  thresholds : List Int := []
  railNom : List Int := []
deriving DecidableEq, Repr

/-- One band of a waveform table (R402): its lengths and its 4 112-byte body. -/
structure Band where
  frames : Nat := 1
  clearFrames : Nat := 2
  body : List Byte := []
deriving DecidableEq, Repr

/-- Area entry (R423). -/
structure Area where
  panel : Nat
  chan : Nat
  x0 : Nat
  y0 : Nat
  width : Nat
  height : Nat
  func : Nat
  cond : Nat
  target : Nat
deriving DecidableEq, Repr

/-- Label entry (R400). -/
structure LabelEntry where
  point : Nat
  text : List Byte
deriving DecidableEq, Repr

/-- Panel section (R400); `waves` holds the table each panel's TABLE_OFS names. -/
structure PanelSec where
  panels : List PanelSet := []
  font : List Byte := []
  areas : List Area := []
  labels : List LabelEntry := []
  waves : List (List Band) := []
deriving DecidableEq, Repr

/-- Lamp entry (R427). -/
structure LampCfg where
  safe : Nat := 0
  src : Nat := 0
  current : Nat := 0
  duty : Nat := 0
  pattern : Nat := 0
  ref : Nat := 0
  maskOn : Nat := 0
  maskFlash : Nat := 0
  vsupMv : Nat := 0
deriving DecidableEq, Repr

/-- Mode section (R486). -/
structure ModeSec where
  autoRun : Bool := true
  boMains : Bool := false
  rtcPresent : Bool := false
  boDelay : Nat := 0
  boExit : Nat := 0
  shed : Nat := 0
  cmp : Nat := 0
  cmpEn : Bool := false
  onCmp : Bool := false
  onWake : Bool := false
  hold : Bool := false
  wake : Nat := 0
deriving DecidableEq, Repr

/-- A configuration image as the module holds it: the header fields of R379 that act after staging, and its sections.
`panel` and `lamps` are none when the optional section is absent (R380). -/
structure Epoch where
  seq : Nat := 0
  setWord : Nat := 0
  level : Nat := 0
  target : Nat := 0
  cost : Nat := 0
  deviceMask : Nat := 0
  route : Route := {}
  cell : CellSec := {}
  chars : List Characteristic := []
  loop : LoopSec := {}
  dio : DioSec := {}
  point : PointSec := {}
  groups : List Member := []
  call : CallSec := {}
  red : RedSec := {}
  panel : Option PanelSec := none
  lamps : Option (List LampCfg) := none
  mode : ModeSec := {}
deriving DecidableEq, Repr

end Sys2Proof.Machine
end

