-- ==== Sys2Proof/Machine/Image.lean ====
section
/-! DEFINITION. Reading a configuration image: the container (R379, R380) and each section body, by the table of the
chapter that defines it. Reading is total; whether what is read is legal is Machine/ImageCheck.lean's question. -/

namespace Sys2Proof.Machine

/-- A section table entry (R380). -/
structure SecEntry where
  type : Nat
  off : Nat
  len : Nat
deriving DecidableEq, Repr

/-- Section table of an image: SECTION_COUNT entries of 16 bytes after the 128-byte header. -/
def secTable (img : List Byte) : List SecEntry :=
  tab (u16 img 96) fun i =>
    let e := slice img (128 + 16 * i) 16
    { type := u16 e 0, off := u32 e 4, len := u32 e 8 }

/-- The body of the section of a type; empty when there is none. -/
def secBody (img : List Byte) (ty : Nat) : List Byte :=
  match (secTable img).find? (fun e => e.type = ty) with
  | some e => slice img e.off e.len
  | none => []

def hasSec (img : List Byte) (ty : Nat) : Bool := (secTable img).any fun e => e.type = ty

/-- Route section (R70 to R73). -/
def parseRoute (b : List Byte) : Route where
  pins := tab 64 fun n =>
    let e := slice b (4 * n) 4
    { srcKind := bits (u8 e 0) 2 0, srcIndex := bits (u8 e 1) 4 0, burPresent := bit (u8 e 2) 6,
      burLow := bit (u8 e 2) 5, burIndex := bits (u8 e 2) 4 0, gndTie := bit (u8 e 3) 0 }
  cells := tab 64 fun k =>
    let e := slice b (256 + 8 * k) 8
    { pPin := u8 e 0, nPin := u8 e 1, leadMode := u8 e 2, leadCell := u8 e 3, leadMohm := u16 e 4, excSrc := u8 e 6 }
  iexc := tab 16 fun i => bits (u16 b (768 + 2 * i)) 3 0
  vexc := tab 4 fun i => { ilimMa := bits (u32 b (800 + 4 * i)) 20 16, voltMv := bits (u32 b (800 + 4 * i)) 13 0 }
  bias := tab 4 fun i => { rser10M := bit (u16 b (816 + 2 * i)) 8, level := bits (u16 b (816 + 2 * i)) 7 0 }
  burden := tab 32 fun i => { loToGnd := bit (u8 b (824 + i)) 1, is250 := bit (u8 b (824 + i)) 0 }

/-- Cell section (R115, R116). -/
def parseCell (b : List Byte) : CellSec where
  cells := tab 64 fun k =>
    let v := u8 b (4 * k)
    { mode := bits v 5 4, notchOff := bit v 3, tag := bits v 2 0 }
  nominal60 := bit (u8 b 256) 0
  track := bit (u8 b 256) 1
  cjc := tab 8 fun i => u8 b (264 + i)

/-- A polynomial block and how many bytes it takes (R127). -/
def parsePoly (b : List Byte) : Poly where
  xBase := s64 b 0
  g := u8 b 9
  segs := tab (u8 b 8) fun k =>
    let e := slice b (16 + 20 * k) 20
    { w := u8 e 0, c0 := s32 e 4, c1 := s32 e 8, c2 := s32 e 12, c3 := s32 e 16 }

def polyLen (b : List Byte) : Nat := 16 + 20 * u8 b 8

/-- A characteristic record from its 16-byte header on (R123 to R128). -/
def parseChar (r : List Byte) : Characteristic :=
  let b := slice r 16 (u16 r 4)
  { type := u8 r 0, input := u8 r 1, subtype := u8 r 2, cjcCell := u8 r 6, cjcChar := u8 r 7,
    engMin := s32 r 8, engMax := s32 r 12,
    body :=
      match u8 r 0 with
      | 1 => .linear (s32 b 0) (s32 b 4) (u8 b 8)
      | 2 => .sqrt (s64 b 0) (s64 b 8) (u32 b 16) (s32 b 20) (s32 b 24)
      | 3 => .table (tab (u8 b 0) fun i => (s64 b (8 + 16 * i), s32 b (16 + 16 * i)))
      | 6 => .thermo (parsePoly b) (parsePoly (b.drop (polyLen b)))
      | _ => .poly (parsePoly b) }

/-- Offset of characteristic record `i` in the section body (R123). -/
def charOff (b : List Byte) (i : Nat) : Nat := u32 b (4 + 4 * i)

def parseChars (b : List Byte) : List Characteristic :=
  tab (u16 b 0) fun i => parseChar (b.drop (charOff b i))

/-- Loop section (R141). -/
def parseLoop (b : List Byte) : LoopSec where
  ne43 := tab 64 fun k => bit (u8 b k) 0
  outs := tab 8 fun n =>
    let e := slice b (64 + 16 * n) 16
    { enable := bit (u8 e 0) 0, failUp := bit (u8 e 0) 1, safe := bits (u8 e 0) 3 2, point := bits (u16 e 2) 9 0,
      eLo := s32 e 4, eHi := s32 e 8, supPoint := bits (u16 e 12) 9 0 }

/-- DIO section (R153 to R155). -/
def parseDio (b : List Byte) : DioSec where
  chans := tab 32 fun c =>
    let e := slice b (16 * c) 16
    let v := u8 e 0
    let o := u8 e 4
    { pulseCatch := bit v 5, sense := bits v 4 3, type3 := bit v 2, dir := bits v 1 0, countEdge := bits (u8 e 1) 1 0,
      debounceUs := u16 e 2, olOff := bit o 7, pwroffHold := bit o 6, safe := bits o 5 4, invert := bit o 3,
      outSrc := bits o 2 0, point := bits (u16 e 6) 9 0, stateMask := bits (u16 e 8) 8 0, gateTicks := u16 e 10 }
  reps := tab 8 fun n =>
    let e := slice b (512 + 24 * n) 24
    { eLo := s32 e 0, eHi := s32 e 4, fLo := u32 e 8, fHi := u32 e 12, fFail := u32 e 16 }

/-- Point entry, bytes 0..43 of a context (R187). -/
def parsePoint (e : List Byte) : PointCfg :=
  let f := u8 e 6
  { cond := bits (u8 e 0) 7 4, srcKind := bits (u8 e 0) 3 0, char := u8 e 1, srcRef := u16 e 2, param := u16 e 4,
    charEn := bit f 7, inhKind := bits f 6 5, inhFault := bit f 4, inhInv := bit f 3, noack := bit f 2,
    prio := bits f 1 0, inhRef := u16 e 8, ackMask := u16 e 10, limHi := s32 e 12, limLo := s32 e 16,
    deadband := bits (u32 e 20) 30 0, onDelay := u24 e 24, offDelay := u24 e 27, inhDelay := u16 e 30,
    mgrp := tab 4 fun i => (bit (u8 e (32 + i)) 7, bits (u8 e (32 + i)) 5 0),
    dgrp := tab 4 fun i => (bit (u16 e (36 + 2 * i)) 15, bits (u16 e (36 + 2 * i)) 9 0) }

/-- Point section (R191). -/
def parsePoints (b : List Byte) : PointSec where
  points := (List.range 1024).filterMap fun p =>
    let e := slice b (44 * p) 44
    if allZero e then none else some (p, parsePoint e)
  publish := tab 128 fun j =>
    let v := u16 b (45056 + 2 * j)
    if bit v 15 then some (bits v 9 0) else none
  locs := (List.range 256).filterMap fun i =>
    let v := u32 b (45312 + 4 * i)
    if bit v 31 then some { dev := bits v 7 0, input := bits v 15 8, cls := bits v 19 16, idx := i } else none

/-- Domain group section (R217). -/
def parseGroups (b : List Byte) : List Member :=
  tab (u32 b 0) fun i =>
    let v := u32 b (4 + 4 * i)
    { dpid := bits v 15 0, group := bits v 25 16, prio := bits v 27 26 }

/-- Offsets of the four lists of the call section, and its end (R230). -/
def callOffs (b : List Byte) : Nat × Nat × Nat × Nat :=
  let d := 2056 + 4 * u16 b 2048
  let s := d + 8 * u16 b 2050
  let k := s + 4 * u16 b 2052
  (d, s, k, k + 4 * u16 b 2054)

/-- Session entry (R231). -/
def parseSession (e : List Byte) : SessionCfg :=
  let v := u8 e 0
  { dutyInit := bits v 7 4, wkEn := bit v 3, ntiers := bits v 2 1, enable := bit v 0, follow := bit (u8 e 1) 6,
    dutyFrom := bits (u8 e 1) 5 0, wkArmRef := bits (u16 e 2) 12 0, timeouts := tab 4 fun i => u32 e (4 + 4 * i),
    wkT1 := u32 e 20, wkT2 := u32 e 24, wkResetMask := u16 e 28, dutyMaskClass := u16 e 30 }

/-- Destination entry (R233). -/
def parseDest (e : List Byte) : Dest :=
  { dev := u8 e 0, prewarn := bit (u8 e 1) 4, audible := bit (u8 e 1) 3, kind := bits (u8 e 1) 2 0, index := u8 e 2,
    pattern := bits (u8 e 3) 5 4, tierMask := bits (u8 e 3) 3 0, dutyMask := u16 e 4, session := bits (u8 e 6) 5 0,
    zone := bits (u8 e 7) 3 0 }

/-- Call section (R230 to R235). -/
def parseCall (b : List Byte) : CallSec :=
  let (d, s, k, _) := callOffs b
  { sessions := (List.range 64).filterMap fun i =>
      let e := slice b (32 * i) 32
      if allZero e then none else some (i, parseSession e)
    binds := tab (u16 b 2048) fun i =>
      let v := u32 b (2056 + 4 * i)
      { group := bits v 9 0, session := bits v 15 10, prioMask := bits v 19 16 }
    dests := tab (u16 b 2050) fun i => parseDest (slice b (d + 8 * i) 8)
    sils := tab (u16 b 2052) fun i =>
      let v := u32 b (s + 4 * i)
      { dev := bits v 7 0, input := bits v 15 8, zones := bits v 31 16 }
    keys := tab (u16 b 2054) fun i =>
      let v := u32 b (k + 4 * i)
      { dev := bits v 7 0, chan := bits v 12 8, func := bits v 15 13, target := bits v 31 16 } }

/-- Redundancy section (R269). -/
def parseRed (b : List Byte) : RedSec := { auditPeriod := u32 b 0, auditPhase := u32 b 4 }

/-- Panel setting (R401). -/
def parsePanelSet (e : List Byte) : PanelSet :=
  let v := u8 e 0
  { present := bit v 0, builtin := bit v 1, inv := bits v 3 2, width := u16 e 2, height := u16 e 4, tableId := u16 e 6,
    tableOfs := u32 e 8, holdPeriod := u32 e 12, bandValid := bit (u16 e 16) 15, bandPoint := bits (u16 e 16) 9 0,
    thresholds := tab 7 fun i => s32 e (20 + 4 * i), railNom := tab 4 fun i => sx 16 (u16 e (48 + 2 * i)) }

/-- Waveform table (R402): 8 band headers of 4 bytes, then 8 bodies of 4 112 bytes. -/
def parseWave (t : List Byte) : List Band :=
  tab 8 fun i => { frames := u8 t (4 * i), clearFrames := u8 t (4 * i + 1), body := slice t (32 + 4112 * i) 4112 }

/-- Length of a waveform table (R400). -/
def waveLen : Nat := 32928

/-- Panel section (R400 to R402, R423). -/
def parsePanel (b : List Byte) : PanelSec :=
  let na := u16 b 128
  let ps := tab 2 fun i => parsePanelSet (slice b (64 * i) 64)
  { panels := ps
    font := slice b 136 3456
    areas := tab na fun i =>
      let e := slice b (3592 + 16 * i) 16
      { panel := u8 e 0, chan := u8 e 1, x0 := u16 e 2, y0 := u16 e 4, width := u16 e 6, height := u16 e 8,
        func := u8 e 10, cond := u8 e 11, target := u16 e 12 }
    labels := tab (u16 b 130) fun i =>
      let e := slice b (3592 + 16 * na + 24 * i) 24
      { point := bits (u16 e 0) 9 0, text := slice e 2 22 }
    waves := ps.map fun p => if p.present then parseWave (slice b p.tableOfs waveLen) else [] }

/-- Lamp section (R427). -/
def parseLamps (b : List Byte) : List LampCfg :=
  tab 16 fun n =>
    let e := slice b (12 * n) 12
    { safe := bits (u8 e 0) 4 3, src := bits (u8 e 0) 2 0, current := bits (u8 e 1) 5 0, duty := u8 e 2,
      pattern := bits (u8 e 3) 1 0, ref := u16 e 4, maskOn := bits (u16 e 6) 8 0, maskFlash := bits (u16 e 8) 8 0,
      vsupMv := u16 e 10 }

/-- Mode section (R486). -/
def parseMode (b : List Byte) : ModeSec :=
  { autoRun := bit (u8 b 0) 0, boMains := bit (u8 b 0) 1, rtcPresent := bit (u8 b 0) 2, boDelay := u16 b 2,
    boExit := u16 b 4, shed := u64 b 8, cmp := u48 b 32, cmpEn := bit (u16 b 38) 0, onCmp := bit (u16 b 38) 1,
    onWake := bit (u16 b 38) 2, hold := bit (u16 b 38) 3, wake := u32 b 40 }

/-- The whole image (R379, R380). -/
def parseImage (img : List Byte) : Epoch where
  seq := u32 img 16
  setWord := u32 img 64
  level := u16 img 14
  target := u8 img 12
  cost := u32 img 20
  deviceMask := u64 img 24
  route := parseRoute (secBody img 1)
  cell := parseCell (secBody img 2)
  chars := parseChars (secBody img 3)
  loop := parseLoop (secBody img 4)
  dio := parseDio (secBody img 5)
  point := parsePoints (secBody img 6)
  groups := parseGroups (secBody img 7)
  call := parseCall (secBody img 8)
  red := parseRed (secBody img 9)
  panel := if hasSec img 10 then some (parsePanel (secBody img 10)) else none
  lamps := if hasSec img 11 then some (parseLamps (secBody img 11)) else none
  mode := parseMode (secBody img 12)

/-- The epoch ID (R381): EPOCH_SEQ below, bytes 0..3 of SET_HASH above. -/
def Epoch.id (e : Epoch) : Nat := e.seq + 2 ^ 32 * e.setWord

/-! Reading one entry of a section; an entry that is not there reads as an unused one. -/

def Route.pin (r : Route) (n : Nat) : PinEntry := r.pins.getD n {}
def Route.cellR (r : Route) (k : Nat) : CellRoute := r.cells.getD k {}
def Route.iexcCur (r : Route) (i : Nat) : Nat := r.iexc.getD i 0
def Route.vex (r : Route) (i : Nat) : Vexc := r.vexc.getD i {}
def Route.bur (r : Route) (i : Nat) : Burden := r.burden.getD i {}
def CellSec.set (c : CellSec) (k : Nat) : CellSetting := c.cells.getD k {}
def Epoch.pt (e : Epoch) (p : Nat) : PointCfg :=
  match e.point.points.find? (fun x => x.1 = p) with
  | some x => x.2
  | none => {}
def Epoch.sess (e : Epoch) (s : Nat) : SessionCfg :=
  match e.call.sessions.find? (fun x => x.1 = s) with
  | some x => x.2
  | none => {}
def Epoch.chan (e : Epoch) (c : Nat) : DioChan := e.dio.chans.getD c {}
def Epoch.rep (e : Epoch) (c : Nat) : Repeat := e.dio.reps.getD (c - 24) {}
def Epoch.lout (e : Epoch) (n : Nat) : LoopOut := e.loop.outs.getD n {}
def Epoch.lamp (e : Epoch) (n : Nat) : LampCfg := (e.lamps.getD []).getD n {}
def Epoch.panelSet (e : Epoch) (i : Nat) : PanelSet :=
  match e.panel with
  | some p => p.panels.getD i {}
  | none => {}

/-- A point is configured when its SRC_KIND is not 0 (R187). -/
def Epoch.configured (e : Epoch) (p : Nat) : Bool := (e.pt p).srcKind ≠ 0

/-- A point with an ENG value (R188). -/
def PointCfg.hasEng (c : PointCfg) : Bool := c.srcKind ∈ [1, 2, 5, 6, 7, 10]

/-- The pins that carry source `idx` of kind `kind`. -/
def Route.srcPins (r : Route) (kind idx : Nat) : List Nat :=
  (List.range 64).filter fun n => (r.pin n).srcKind = kind ∧ (r.pin n).srcIndex = idx

/-- The pins that carry the high (or low) terminal of burden `b`. -/
def Route.burPins (r : Route) (low : Bool) (b : Nat) : List Nat :=
  (List.range 64).filter fun n => (r.pin n).burPresent ∧ (r.pin n).burLow = low ∧ (r.pin n).burIndex = b

/-- The burden whose high terminal lies on a pin. -/
def Route.burHighOn (r : Route) (n : Nat) : Option Nat :=
  let p := r.pin n
  if n < 64 ∧ p.burPresent ∧ ¬p.burLow then some p.burIndex else none

/-- A cell named by some bank in CJC_CELL (R117). -/
def CellSec.isCjc (c : CellSec) (k : Nat) : Bool := k < 64 ∧ k ∈ c.cjc

/-- A cell with no positive pin (R72). -/
def Route.unrouted (r : Route) (k : Nat) : Bool := (r.cellR k).pPin = 0xFF

/-- Nominal current of an IEXC by its CURRENT code, in nA (R73, R121). -/
def iexcNa (code : Nat) : Nat :=
  [0, 10000, 20000, 50000, 100000, 200000, 250000, 500000, 1000000, 2000000].getD code 0

/-- Nominal current of the IEXC that excites cell `k`; zero when there is none, it is off or on no pin (R121). -/
def Epoch.nominalNa (e : Epoch) (k : Nat) : Nat :=
  if e.cell.isCjc k then 100000
  else
    let x := (e.route.cellR k).excSrc
    if x < 16 ∧ e.route.srcPins 1 x ≠ [] then iexcNa (e.route.iexcCur x) else 0

/-- A cell that a main cell names as its lead cell (R72, R85). -/
def Route.isLead (r : Route) (k : Nat) : Bool := (r.cellR k).leadMode = 2

/-- The class of a location, none when no entry matches (R207). -/
def Epoch.locClass (e : Epoch) (dev input : Nat) : Option Nat :=
  if dev = 0xFF then some 15
  else (e.point.locs.find? fun l => l.dev = dev ∧ l.input = input).map (·.cls)

/-- A location is in the location table. -/
def Epoch.hasLoc (e : Epoch) (dev input : Nat) : Bool := e.point.locs.any fun l => l.dev = dev ∧ l.input = input

end Sys2Proof.Machine
end

