-- ==== Sys2Proof/Machine/ImageCheck.lean ====
section
/-! DEFINITION. Validating a staged image (13_configuration_epochs R384, R386): the container, LEVEL, COST and every
section's own checks. A failure is a reason code with the index of the entry that fails. -/

namespace Sys2Proof.Machine

/-- What of the module itself the checks consult: its device number (R217, R384), the protocol levels of the running
control firmware (R384), whether a host attaches (R486) and whether panel B's inductors were found (R404). -/
structure StageCtx where
  dev : Nat
  plMin : Nat
  plMax : Nat
  hostAttached : Bool
  boostB : Bool
deriving DecidableEq, Repr

/-- A failing check: reason code (Table: Configuration reason codes) and entry index. -/
abbrev Fail := Nat × Nat

/-- Every index below `n` at which `p` holds fails with `code`. -/
def chk (code n : Nat) (p : Nat → Bool) : List Fail :=
  (List.range n).filterMap fun i => if p i then some (code, i) else none

/-- One failure of a section as a whole. -/
def chk1 (code : Nat) (p : Bool) : List Fail := if p then [(code, 0)] else []

/-- Some two entries of a list agree under `f`. -/
def dup {α : Type} [DecidableEq α] : List α → Bool
  | [] => false
  | x :: xs => x ∈ xs || dup xs

/-- Index of entries that repeat an earlier one. -/
def dupAt {α : Type} [DecidableEq α] (code : Nat) (xs : List α) : List Fail :=
  (List.range xs.length).filterMap fun i =>
    match xs[i]? with
    | some x => if x ∈ xs.take i then some (code, i) else none
    | none => none

/-! Reserved bits, and reserved encodings that no check of the section names (R7, R386: 0x46). -/

/-- Log 46: DEDUCED. -/
def rsvRoute (b : List Byte) : List Fail :=
  let r := parseRoute b
  chk 0x46 64 (fun n =>
    let e := slice b (4 * n) 4
    let p := r.pin n
    bits (u8 e 0) 7 3 ≠ 0 || bits (u8 e 1) 7 5 ≠ 0 || bit (u8 e 2) 7 || bits (u8 e 3) 7 1 ≠ 0
      || 5 < p.srcKind || (p.srcKind = 0 && p.srcIndex ≠ 0) || (!p.burPresent && p.burIndex ≠ 0))
  ++ chk 0x46 64 (fun k =>
    let c := r.cellR k
    u8 b (256 + 8 * k + 7) ≠ 0 || 3 < c.leadMode || (c.leadMode ≠ 1 && c.leadCell ≠ 0)
      || (c.leadMode ≠ 3 && c.leadMohm ≠ 0) || (15 < c.excSrc && c.excSrc ≠ 0xFF))
  ++ chk 0x46 16 (fun i => bits (u16 b (768 + 2 * i)) 15 4 ≠ 0 || 9 < r.iexcCur i)
  ++ chk 0x46 4 (fun i =>
    let v := u32 b (800 + 4 * i)
    bits v 31 21 ≠ 0 || bits v 15 14 ≠ 0 || 20 < (r.vex i).ilimMa || 10000 < (r.vex i).voltMv)
  ++ chk 0x46 4 (fun i => let v := u16 b (816 + 2 * i); bits v 15 9 ≠ 0 || 250 < bits v 7 0)
  ++ chk 0x46 32 (fun i => bits (u8 b (824 + i)) 7 2 ≠ 0)
  ++ chk1 0x46 (!allZero (slice b 856 8))

def rsvCell (b : List Byte) : List Fail :=
  chk 0x46 64 (fun k => bits (u8 b (4 * k)) 7 6 ≠ 0 || u24 b (4 * k + 1) ≠ 0)
  ++ chk1 0x46 (bits (u8 b 256) 7 2 ≠ 0 || !allZero (slice b 257 7))

def rsvPoly (b : List Byte) : Bool :=
  !allZero (slice b 10 6) || (List.range (u8 b 8)).any fun k => u24 b (16 + 20 * k + 1) ≠ 0

/-- Length of the body a characteristic's type defines (R124 to R128). -/
def charBodyLen (x : List Byte) (ty : Nat) : Nat :=
  match ty with
  | 1 => 16
  | 2 => 32
  | 3 => 8 + 16 * u8 x 0
  | 6 => polyLen x + polyLen (x.drop (polyLen x))
  | _ => polyLen x

/-- The header of characteristic record `i` lies within the section, past the offsets (R123). -/
def charHeader (b : List Byte) (i : Nat) : Bool := 4 + 4 * u16 b 0 ≤ charOff b i && charOff b i + 16 ≤ b.length

/-- A characteristic record misaligned, beyond the section, overlapping another, or of another length than its TYPE has. -/
def charBad (b : List Byte) (i : Nat) : Bool :=
  let n := u16 b 0
  let span := fun i => let o := charOff b i; (o, o + 16 + u16 (b.drop o) 4)
  let (o, e) := span i
  let r := b.drop o
  o % 4 ≠ 0 || o < 4 + 4 * n || b.length < e
    || (1 ≤ u8 r 0 && u8 r 0 ≤ 6 && u16 r 4 ≠ charBodyLen (r.drop 16) (u8 r 0))
    || (List.range n).any fun j => j ≠ i && (span j).1 < e && o < (span j).2

/-- The layout half of the characteristic checks, over the section's bytes (CHR_BODY); with COUNT 0 the body is 4 bytes. -/
def failsCharBody (b : List Byte) : List Fail :=
  let n := u16 b 0
  if 256 < n || b.length < 4 || (n = 0 && b.length ≠ 4) then [(0x5A, 0)] else chk 0x5A n (charBad b)

def rsvChars (b : List Byte) : List Fail :=
  chk1 0x46 (u16 b 2 ≠ 0)
  ++ chk 0x46 (u16 b 0) (fun i =>
    let r := b.drop (charOff b i)
    let x := slice r 16 (u16 r 4)
    charHeader b i && (u8 r 3 ≠ 0 || (u8 r 0 ≠ 6 && (u8 r 6 ≠ 0xFF || u8 r 7 ≠ 0))
      || !charBad b i && (match u8 r 0 with
          | 1 => !allZero (slice x 9 7)
          | 2 => !allZero (slice x 28 4)
          | 3 => !allZero (slice x 1 7) || (List.range (u8 x 0)).any fun j => u32 x (20 + 16 * j) ≠ 0
          | 4 => rsvPoly x
          | 5 => rsvPoly x
          | 6 => rsvPoly x || rsvPoly (x.drop (polyLen x))
          | _ => false)))

def rsvLoop (b : List Byte) : List Fail :=
  chk 0x46 64 (fun k => bits (u8 b k) 7 1 ≠ 0)
  ++ chk 0x46 8 (fun n =>
    let e := slice b (64 + 16 * n) 16
    bits (u8 e 0) 7 4 ≠ 0 || bits (u8 e 0) 3 2 = 3 || u8 e 1 ≠ 0 || bits (u16 e 2) 15 10 ≠ 0
      || bits (u16 e 12) 15 10 ≠ 0 || u16 e 14 ≠ 0)

/-- DEBOUNCE_US 0, reserved in the layout (R154), is left to DIO_CFG, whose check (R186) names channels with DIR 1 only. Log 115:
DEDUCED. -/
def rsvDio (b : List Byte) : List Fail :=
  chk 0x46 32 (fun c =>
    let e := slice b (16 * c) 16
    let o := u8 e 4
    bits (u8 e 0) 7 6 ≠ 0 || bits (u8 e 0) 4 3 = 3 || bits (u8 e 0) 1 0 = 3 || bits (u8 e 1) 7 2 ≠ 0
      || bits o 5 4 = 3 || 4 < bits o 2 0 || u8 e 5 ≠ 0 || bits (u16 e 6) 15 10 ≠ 0 || bits (u16 e 8) 15 9 ≠ 0
      || u32 e 12 ≠ 0)
  ++ (chk 0x46 8 (fun n => u32 b (512 + 24 * n + 20) ≠ 0)).map fun f => (f.1, f.2 + 24)

def rsvPoints (b : List Byte) : List Fail :=
  chk 0x46 1024 (fun p =>
    let e := slice b (44 * p) 44
    let c := parsePoint e
    u8 e 7 ≠ 0 || bit (u32 e 20) 31 || (List.range 4).any (fun i => bit (u8 e (32 + i)) 6)
      || (List.range 4).any (fun i => bits (u16 e (36 + 2 * i)) 14 10 ≠ 0)
      || (c.srcKind ≠ 10 && c.cond = 5 && bits c.param 15 10 ≠ 0)
      || (c.srcKind ≠ 10 && c.cond ≠ 5 && c.cond ≠ 6 && c.param ≠ 0))
  ++ chk 0x46 128 (fun j => bits (u16 b (45056 + 2 * j)) 14 10 ≠ 0)
  ++ chk 0x46 256 (fun i => bits (u32 b (45312 + 4 * i)) 30 20 ≠ 0)

def rsvGroups (b : List Byte) : List Fail := chk 0x46 (min (u32 b 0) (b.length / 4)) fun i => bits (u32 b (4 + 4 * i)) 31 28 ≠ 0

/-- Bits of a TARGET beyond the fields of its FUNC (Table: Key functions), for a key or a panel area. -/
def keyTargetRsv (func t : Nat) : Bool :=
  match func with
  | 0 => t ≠ 0
  | 1 => bits t 15 10 ≠ 0
  | 5 => bits t 15 8 ≠ 0
  | _ => bits t 15 6 ≠ 0

def rsvCall (b : List Byte) : List Fail :=
  let (d, _, k, _) := callOffs b
  chk 0x46 64 (fun i =>
    let e := slice b (32 * i) 32
    let s := parseSession e
    bit (u8 e 1) 7 || bits (u16 e 2) 15 13 ≠ 0 || (!s.follow && s.dutyFrom ≠ 0) || (!s.wkEn && s.wkArmRef ≠ 0))
  ++ chk 0x46 (u16 b 2048) (fun i => bits (u32 b (2056 + 4 * i)) 31 20 ≠ 0)
  ++ chk 0x46 (u16 b 2050) (fun i =>
    let e := slice b (d + 8 * i) 8
    bits (u8 e 1) 7 5 ≠ 0 || bits (u8 e 3) 7 6 ≠ 0 || bits (u8 e 6) 7 6 ≠ 0 || bits (u8 e 7) 7 4 ≠ 0)
  ++ chk 0x46 (u16 b 2054) (fun i =>
    let v := u32 b (k + 4 * i)
    keyTargetRsv (bits v 15 13) (bits v 31 16))

def rsvPanel (b : List Byte) : List Fail :=
  chk 0x46 2 (fun i =>
    let e := slice b (64 * i) 64
    bits (u8 e 0) 7 4 ≠ 0 || u8 e 1 ≠ 0 || bits (u16 e 16) 14 10 ≠ 0 || u16 e 18 ≠ 0 || u64 e 56 ≠ 0
      || (i = 1 && u64 e 48 ≠ 0) || (!bit (u8 e 0) 0 && !allZero e))
  ++ chk1 0x46 (u32 b 132 ≠ 0)
  ++ chk 0x46 2 (fun i => bit (u8 b (64 * i)) 0 && (List.range 8).any fun k => u16 b (u32 b (64 * i + 8) + 4 * k + 2) ≠ 0)
  ++ chk 0x46 (u16 b 128) (fun i =>
    let a := 3592 + 16 * i
    u16 b (a + 14) ≠ 0 || keyTargetRsv (u8 b (a + 10)) (u16 b (a + 12)))
  ++ chk 0x46 (u16 b 130) (fun i => bits (u16 b (3592 + 16 * u16 b 128 + 24 * i)) 15 10 ≠ 0)

def rsvLamps (b : List Byte) : List Fail :=
  chk 0x46 16 fun n =>
    let e := slice b (12 * n) 12
    let l := (parseLamps b).getD n {}
    bits (u8 e 0) 7 5 ≠ 0 || bits (u8 e 0) 4 3 = 3 || 3 < l.src || bits (u8 e 1) 7 6 ≠ 0 || bits (u8 e 3) 7 2 ≠ 0
      || (l.src ≠ 0 && l.duty = 0) || bits (u16 e 6) 15 9 ≠ 0 || bits (u16 e 8) 15 9 ≠ 0
      || (l.src ∉ [1, 3] && l.ref ≠ 0)

/-! The checks of each section's chapter, over the parsed image. -/

/-- Table: Crosspoint legality (R74), 0x50 to 0x57. -/
def failsRoute (e : Epoch) : List Fail :=
  let r := e.route
  let cnt := fun k => [0, 16, 4, 4, 32, 8].getD k 0
  let named := fun b => r.burPins false b ++ r.burPins true b
  chk 0x50 64 (fun n =>
    let p := r.pin n
    p.srcKind ≠ 0 && (p.srcKind ≤ 5 && cnt p.srcKind ≤ p.srcIndex
      || 1 < (r.srcPins p.srcKind p.srcIndex).length || (p.srcKind = 2 && (r.vex p.srcIndex).ilimMa = 0)))
  ++ chk 0x51 64 (fun n =>
    let p := r.pin n
    p.burPresent && ((r.burPins false p.burIndex).length ≠ 1
      || (let lo := (r.burPins true p.burIndex).length
          if (r.bur p.burIndex).loToGnd then lo ≠ 0 else lo ≠ 1)))
  ++ chk 0x52 64 (fun n => (r.pin n).srcKind = 2 && (List.range 32).any fun b => n ∈ named b)
  ++ chk 0x53 64 (fun n => (r.pin n).srcKind = 4 && (List.range 32).any fun b => n ∈ named b)
  ++ chk 0x54 64 (fun n => (r.pin n).gndTie && (r.pin n).srcKind ≠ 0)
  ++ chk 0x55 64 (fun k =>
    let c := r.cellR k
    c.pPin = 0xFE || (64 ≤ c.pPin && c.pPin ≤ 0xFD) || (64 ≤ c.nPin && c.nPin ≤ 0xFD)
      || (c.pPin = c.nPin && c.pPin ≠ 0xFF) || (c.nPin = 0xFF && c.pPin ≠ 0xFF) || (c.pPin = 0xFF && c.nPin ≠ 0xFF)
      || (c.pPin = 0xFF && !e.cell.isCjc k && e.point.points.any fun p => p.2.srcKind = 1 && bits p.2.srcRef 5 0 = k))
  ++ chk 0x56 64 (fun k =>
    let c := r.cellR k
    let mains := (List.range 64).filter fun j => (r.cellR j).leadMode = 1 && (r.cellR j).leadCell = k
    (c.leadMode = 1 && (64 ≤ c.leadCell || (r.cellR c.leadCell).leadMode ≠ 2 || (r.cellR c.leadCell).nPin ≠ c.pPin))
      || (c.leadMode = 2 && mains.length ≠ 1)
      || ((c.leadMode = 1 || c.leadMode = 3) && c.excSrc = 0xFF)
      || (c.excSrc < 16 && (r.iexcCur c.excSrc = 0 || r.srcPins 1 c.excSrc = [])))
  ++ chk1 0x57 (40 < ((List.range 4).map fun i => if r.srcPins 2 i = [] then 0 else (r.vex i).ilimMa).sum)

/-- CELL_MODE and CHR_CJC of the cell section (Table: Characteristic checks, R118, R138). -/
def failsCell (e : Epoch) : List Fail :=
  chk 0x58 64 (fun k =>
    let s := e.cell.set k
    s.mode = 3 || 5 < s.tag
      || (s.mode = 2 && (match e.route.burHighOn (e.route.cellR k).pPin with
          | none => true
          | some b => if (e.route.bur b).is250 then s.tag ≠ 0 else 1 < s.tag)))
  ++ chk 0x5D 8 (fun i =>
    let k := e.cell.cjc.getD i 0xFF
    k ≠ 0xFF && (64 ≤ k || !e.route.unrouted k || k ∈ e.cell.cjc.take i || 1 < (e.cell.set k).mode))

/-- A polynomial's CHR_SEG (R127). -/
def polyBad (p : Poly) : Bool := p.segs.length = 0 || 32 < p.segs.length || 16 < p.g || p.segs.any fun s => 40 < s.w

def strictlyRising : List Int → Bool
  | x :: y :: t => decide (x < y) && strictlyRising (y :: t)
  | _ => true

/-- CHR_TYPE (Table: Characteristic checks). -/
def charTypeBad (c : Characteristic) : Bool :=
  c.type = 0 || 6 < c.type || 3 < c.input
    || (if c.type = 6 then 7 < c.subtype else if c.type = 4 then 1 < c.subtype else c.subtype ≠ 0)
    || ((c.type = 4 || c.type = 5) && c.input ≠ 1) || (c.type = 6 && c.input ≠ 0)

/-- The remaining characteristic checks (Table: Characteristic checks): CHR_TYPE, CHR_SEG, CHR_INPUT, CHR_CJC. -/
def failsChars (e : Epoch) : List Fail :=
  let n := e.chars.length
  let at' := fun i => e.chars[i]?
  let pts := fun i => e.point.points.filter fun p => p.2.charEn && p.2.char = i && p.2.srcKind ≠ 0
  chk 0x59 n (fun i => match at' i with
    | none => false
    | some c => charTypeBad c)
  ++ chk 0x5B n (fun i => match at' i with
    | none => false
    | some c => decide (c.engMax < c.engMin) || (match c.body with
        | .linear _ _ s => 62 < s
        | .sqrt _ xspan _ _ _ => decide (xspan ≤ 0)
        | .table rows => rows.length < 2 || 32 < rows.length || !strictlyRising (rows.map (·.1))
        | .poly a => polyBad a
        | .thermo a b => polyBad a || polyBad b))
  ++ chk 0x5C n (fun i => match at' i with
    | none => false
    | some c => (pts i).any (fun p =>
        if p.2.srcKind = 1 then
          let k := bits p.2.srcRef 5 0
          c.input = 3 || (c.input = 1 && e.nominalNa k = 0)
            || (c.input = 2 && e.route.burHighOn (e.route.cellR k).pPin = none)
        else c.input ≠ 3)
      || (c.type = 6 && c.cjcCell < 64 && e.nominalNa c.cjcCell = 0 && (match at' c.cjcChar with
          | some d => d.input = 1
          | none => false)))
  ++ chk 0x5D n (fun i => match at' i with
    | none => false
    | some c => c.type = 6 && ((match at' c.cjcChar with
        | some d => d.type ≠ 4
        | none => true)
      || 64 ≤ c.cjcCell || (e.route.unrouted c.cjcCell && !e.cell.isCjc c.cjcCell)))

/-- Table: Loop-section checks (R150). -/
def failsLoop (e : Epoch) : List Fail :=
  chk 0x5E 8 (fun n =>
    let o := e.lout n
    (o.enable && (e.route.srcPins 5 n = [] || o.eHi = o.eLo || !(e.pt o.point).hasEng || (e.pt o.supPoint).cond ≠ 8))
      || (!o.enable && e.route.srcPins 5 n ≠ []))
  ++ chk 0x5E 64 (fun k => e.loop.ne43.getD k false && e.route.burHighOn (e.route.cellR k).pPin = none)
  ++ chk 0x5E 64 (fun k => (e.cell.set k).mode = 2 && (match e.route.burHighOn (e.route.cellR k).pPin with
      | none => false
      | some b => (List.range k).any fun j =>
          (e.cell.set j).mode = 2 && e.route.burHighOn (e.route.cellR j).pPin = some b))

def freqOk (v : Nat) : Bool := v = 0 || (100 ≤ v && v ≤ 20000000)

/-- Table: DIO section checks (R186). -/
def failsDio (e : Epoch) : List Fail :=
  chk 0x5F 32 fun c =>
    let x := e.chan c
    let r := e.rep c
    (x.countEdge ≠ 0 && (8 ≤ c || x.dir ≠ 1))
      || (x.gateTicks = 0 && x.countEdge ≠ 0) || (x.gateTicks ≠ 0 && x.countEdge = 0) || 10000 < x.gateTicks
      || (x.dir = 1 && x.debounceUs = 0)
      || (x.sense = 2 && (x.type3 || 16 < ((List.range 32).filter fun j => (e.chan j).sense = 2).length))
      || (x.outSrc ≠ 0 && x.dir ≠ 2)
      || ((x.outSrc = 3 || x.outSrc = 4) && (c < 24 || !(e.pt x.point).hasEng || r.eHi = r.eLo))
      || (x.outSrc = 3 && (!freqOk r.fLo || !freqOk r.fHi || !freqOk r.fFail))
      || (x.outSrc = 4 && (4096 < r.fLo || 4096 < r.fHi || 4096 < r.fFail))
      || (x.countEdge = 0 && e.point.points.any fun p => p.2.srcKind ∈ [5, 6, 7] && p.2.srcRef = c)

/-- SRC_REF lies in the range of its kind (R188). -/
def srcRefOk (c : PointCfg) : Bool :=
  match c.srcKind with
  | 0 => c.srcRef = 0
  | 1 => c.srcRef < 64
  | 2 => c.srcRef < 1024
  | 3 => c.srcRef < 32
  | 4 => c.srcRef < 32
  | 5 => c.srcRef < 8
  | 6 => c.srcRef < 8
  | 7 => c.srcRef < 8
  | 8 => c.srcRef < 7
  | 9 => c.srcRef < 8192
  | 10 => true
  | 11 => c.srcRef < 8
  | _ => false

/-- A lower-numbered point with an ENG value (R192). -/
def engRefOk (e : Epoch) (p q : Nat) : Bool := q < p && (e.pt q).hasEng

/-- Table: Point section checks (R192). Only COND 0 is left to unconfigured points; a reserved COND is PT_COND on any (R386).
Log 46: DEDUCED. -/
def failsPoints (e : Epoch) : List Fail :=
  e.point.points.flatMap (fun pe =>
    let p := pe.1
    let c := pe.2
    let on := c.srcKind ≠ 0
    let sup := (List.range 8).filter fun n => (e.lout n).enable && (e.lout n).supPoint = p
    (if 11 < c.srcKind || !srcRefOk c || (c.srcKind = 1 && !c.charEn) || (c.charEn && c.srcKind ∈ [0, 3, 4, 8, 9, 11])
        || (c.charEn && e.chars.length ≤ c.char)
        || (c.srcKind = 1 && e.route.isLead (bits c.srcRef 5 0))
        || (c.srcKind = 11 && c.cond ≠ 8)
        || (c.cond = 8 && sup.any fun n => c.srcKind ≠ 11 || c.srcRef ≠ n) then [(0x60, p)] else [])
    ++ (if (c.srcKind = 2 && !engRefOk e p c.srcRef) || (c.cond = 5 && !engRefOk e p (bits c.param 9 0))
        then [(0x61, p)] else [])
    ++ (if (on && c.cond = 0) || 8 < c.cond || ((c.cond = 5 || c.cond = 6) && !c.hasEng)
          || (c.cond = 7 && c.charEn && c.srcKind = 1)
          || (c.cond = 6 && (c.param = 0 || decide (c.limHi < c.limLo)))
          || ((c.cond = 7 || c.cond = 8) && c.deadband ≠ 0) then [(0x62, p)] else [])
    ++ (if c.inhKind = 3 || (c.inhKind = 1 && (c.inhRef = p || 1023 < c.inhRef)) || (c.inhKind = 2 && 8191 < c.inhRef)
          || (c.inhKind = 0 && c.inhRef ≠ 0) then [(0x63, p)] else [])
    ++ (if dup ((c.mgrp.filter (·.1)).map (·.2)) || dup ((c.dgrp.filter (·.1)).map (·.2)) then [(0x64, p)] else []))
  ++ (List.range 128).filterMap (fun j =>
    match e.point.publish.getD j none with
    | none => none
    | some p => if !e.configured p || some p ∈ e.point.publish.take j then some (0x65, p) else none)
  ++ (e.point.locs.zipIdx.filter fun l =>
      l.1.cls = 15 || (e.point.locs.take l.2).any fun m => m.dev = l.1.dev && m.input = l.1.input).map
    (fun l => (0x66, l.1.idx))

/-- Entries, the first of which has index `i`, that do not come after the one before them, by domain point ID and then by group
(R217). -/
def groupsUnsorted : Nat → List Member → List Fail
  | i, a :: b :: t => (if a.dpid < b.dpid || (a.dpid = b.dpid && a.group < b.group) then [] else [(0x64, i + 1)]) ++ groupsUnsorted (i + 1) (b :: t)
  | _, _ => []

/-- Entries, from `i` on, that a point has in more than 4 domain groups (R22); the list is sorted by point. -/
def groupsFull : Nat → List Member → List Fail
  | _, [] => []
  | i, a :: t => (if (t.getD 3 { a with dpid := a.dpid + 1 }).dpid = a.dpid then [(0x64, i + 4)] else []) ++ groupsFull (i + 1) t

/-- The rules of the domain group section (R217), with the 4 groups a point may be in (R22). Log 146: DEDUCED. -/
def failsGroups (x : StageCtx) (e : Epoch) : List Fail :=
  chk1 0x64 (e.groups.length ≠ 0 && 1 < x.dev) ++ (if 262144 < e.groups.length then [(0x64, 262144)] else [])
    ++ groupsUnsorted 0 e.groups ++ groupsFull 0 e.groups

/-- Bindings, the first of which has index `i`, that do not come after the one before them. -/
def bindsUnsorted : Nat → List Binding → List Fail
  | i, a :: b :: t =>
    (if a.session < b.session || (a.session = b.session && a.group < b.group) then [] else [(0x67, i + 1)]) ++ bindsUnsorted (i + 1) (b :: t)
  | _, _ => []

/-- Table: Call section checks (R254). -/
def failsCall (x : StageCtx) (e : Epoch) : List Fail :=
  let c := e.call
  let on := fun s => (e.sess s).enable
  chk1 0x67 (4096 < c.binds.length || 2048 < c.dests.length || 256 < c.sils.length || 1024 < c.keys.length)
  ++ bindsUnsorted 0 c.binds
  ++ (c.binds.zipIdx.filter fun b => !on b.1.session || b.1.prioMask = 0).map (fun b => (0x67, b.2))
  ++ chk 0x67 64 (fun s =>
    let q := e.sess s
    (q.follow && (q.dutyFrom = s || (e.sess q.dutyFrom).follow || !on q.dutyFrom))
      || (q.wkEn && (q.ntiers = 0 || q.wkT1 = 0 || q.wkT2 ≤ q.wkT1)))
  ++ (c.dests.zipIdx.filter fun d =>
      let d := d.1
      !on d.session || 63 < d.dev || d.kind = 0 || 3 < d.kind
        || (d.kind = 1 && 31 < d.index) || (d.kind = 2 && 15 < d.index) || (d.kind = 3 && 1 < d.index)
        || d.dutyMask = 0 || (d.tierMask = 0 && !d.prewarn) || (d.pattern ≠ 0 && d.kind ≠ 2)
        || (d.dev = x.dev && d.kind = 1 && ((e.chan d.index).dir ≠ 2 || (e.chan d.index).outSrc ≠ 2))).map
    (fun d => (0x67, d.2))
  ++ chk 0x67 32 (fun ch => (e.chan ch).outSrc = 2
      && !c.dests.any fun d => d.dev = x.dev && d.kind = 1 && d.index = ch)
  ++ (c.sils.zipIdx.filter fun z => !e.hasLoc z.1.dev z.1.input
      || (c.sils.take z.2).any fun w => w.dev = z.1.dev && w.input = z.1.input).map (fun z => (0x67, z.2))
  ++ (c.keys.zipIdx.filter fun k =>
      let j := k.2
      let k := k.1
      let earlier := c.keys.take j
      5 < k.func || !e.hasLoc k.dev k.chan
        || (k.dev = x.dev && (e.chan k.chan).dir ≠ 1)
        || (2 ≤ k.func && !on (bits k.target 5 0))
        || (k.func = 5 && ((e.sess (bits k.target 5 0)).follow
          || earlier.any fun w => w.func = 5 && bits w.target 5 0 = bits k.target 5 0
              && (bits w.target 7 6 = bits k.target 7 6 || w.dev ≠ k.dev)))).map (fun k => (0x67, k.2))

/-- Table: Redundancy section body (R269). -/
def failsRed (b : List Byte) (e : Epoch) : List Fail :=
  chk1 0x46 (u64 b 8 ≠ 0)
  ++ chk1 0x68 (e.red.auditPeriod < 60000 || 86400000 < e.red.auditPeriod || e.red.auditPeriod ≤ e.red.auditPhase)

/-- Drive code of frame `f` of a 16-byte waveform (R402). -/
def driveCode (w : List Byte) (f : Nat) : Nat := bits (u8 w (f / 4)) (2 * (f % 4) + 1) (2 * (f % 4))

/-- Signed value of a drive code (R399). -/
def driveVal (c : Nat) : Int := if c = 1 then 1 else if c = 2 then -1 else 0

/-- The 16 bytes of transition old → new of a band body, and of its clear waveform (R402). -/
def transition (b : Band) (old new : Nat) : List Byte := slice b.body (16 * (old * 16 + new)) 16
def clearWave (b : Band) : List Byte := slice b.body 4096 16

/-- Signed sum of a waveform over its frames; odd frames negated when `alt` (R403). -/
def waveSum (w : List Byte) (frames : Nat) (alt : Bool) : Int :=
  ((List.range frames).map fun f => if alt && f % 2 = 1 then -driveVal (driveCode w f) else driveVal (driveCode w f)).sum

/-- Drive code 0b11 somewhere in the waveform's frames (R404). -/
def wave3 (w : List Byte) : Bool := (List.range 64).any fun f => driveCode w f = 3

/-- A non-zero code at or beyond the waveform's length (R402, R404). -/
def waveTail (w : List Byte) (frames : Nat) : Bool :=
  (List.range 64).any fun f => frames ≤ f && driveCode w f ≠ 0

/-- Every waveform of a band with the length that governs it. -/
def bandWaves (b : Band) : List (List Byte × Nat × Bool) :=
  ((List.range 256).map fun t => (transition b (t / 16) (t % 16), b.frames, decide (t / 16 = t % 16)))
    ++ [(clearWave b, b.clearFrames, false)]

/-- Table: Panel section checks and the DC balance (R403, R404). -/
def failsPanel (x : StageCtx) (e : Epoch) (p : PanelSec) : List Fail :=
  let ps := fun i => p.panels.getD i {}
  let bands := fun i => p.waves.getD i []
  chk 0x46 2 (fun i => (ps i).present && (bands i).any fun b => (bandWaves b).any fun w => wave3 w.1)
  ++ chk 0x69 2 (fun i =>
    let s := ps i
    s.present && (s.width < 64 || 1024 < s.width || s.width % 4 ≠ 0 || s.height < 64 || 768 < s.height
      || (s.builtin && (s.width < 528 || s.height < 192)) || !strictlyRising s.thresholds
      || (0 < s.holdPeriod && s.holdPeriod < 60000) || s.tableOfs % 4 ≠ 0
      || (bands i).any (fun b => b.frames = 0 || 64 < b.frames || b.clearFrames < 2 || 64 < b.clearFrames
          || (bandWaves b).any fun w => waveTail w.1 w.2.1)
      || (s.bandValid && !(e.pt s.bandPoint).hasEng)
      || (i = 1 && !x.boostB)
      || (i = 0 && (let r := fun j => s.railNom.getD j 0
          decide (r 0 < 1000 ∨ 2800 < r 0 ∨ r 1 < -2800 ∨ -1000 < r 1 ∨ r 2 < 500 ∨ 1900 < r 2 ∨ r 3 < -1900 ∨ -500 < r 3)))))
  ++ chk1 0x69 (223 < p.areas.length || 1024 < p.labels.length)
  ++ chk1 0x69 (e.call.dests.any fun d => d.dev = x.dev && d.kind = 3 && !((ps d.index).present && (ps d.index).builtin))
  ++ (p.areas.zipIdx.filter fun a =>
      let i := a.2
      let a := a.1
      let s := ps a.panel
      1 < a.panel || !s.present || s.width < a.x0 + a.width || s.height < a.y0 + a.height || 31 < a.chan
        || (e.chan a.chan).dir ≠ 1 || e.call.keys.any (fun k => k.dev = x.dev && k.chan = a.chan)
        || a.func = 0 || 5 < a.func || !e.hasLoc x.dev (32 + i)).map (fun a => (0x69, a.2))
  ++ (p.labels.zipIdx.filter fun l => !e.configured l.1.point
      || (p.labels.take l.2).any fun m => m.point = l.1.point).map (fun l => (0x69, l.2))
  ++ chk 0x6A 2 (fun i => (ps i).present && (bands i).any fun b => (bandWaves b).any fun w =>
      waveSum w.1 w.2.1 false ≠ 0 || ((ps i).inv = 1 && w.2.2 && waveSum w.1 w.2.1 true ≠ 0))

/-- The layout half of the panel checks, over the section's bytes: the lists and tables lie inside the body and apart. -/
def failsPanelLayout (b : List Byte) (p : PanelSec) : List Fail :=
  let e0 := 3592 + 16 * u16 b 128 + 24 * u16 b 130
  let o := fun i => (p.panels.getD i {}).tableOfs
  let on := fun i => (p.panels.getD i {}).present
  chk1 0x69 (b.length < e0) ++ chk 0x69 2 (fun i => on i && (o i < e0 || b.length < o i + waveLen
    || (on (1 - i) && o i ≠ o (1 - i) && o i < o (1 - i) + waveLen && o (1 - i) < o i + waveLen)))

/-- Table: Lamp section checks (R432). -/
def failsLamps (x : StageCtx) (e : Epoch) : List Fail :=
  chk 0x6B 16 fun n =>
    let l := e.lamp n
    let called := e.call.dests.any fun d => d.dev = x.dev && d.kind = 2 && d.index = n
    (l.src ≠ 0 && ((List.range 9).any (fun s => bit l.maskFlash s && !bit l.maskOn s)
        || l.vsupMv < 3000 || 30000 < l.vsupMv))
      || (l.src = 1 && !e.configured l.ref) || (l.src = 3 && 1023 < l.ref) || (l.src = 2 && !called)
      || (called && l.src ≠ 2)

/-- Table: Mode section body (R486). -/
def failsMode (x : StageCtx) (b : List Byte) (e : Epoch) : List Fail :=
  let m := e.mode
  chk1 0x6C (b.length ≠ (if m.rtcPresent then 48 else 32)
    || (if m.boMains then m.boDelay < 50 || 10000 < m.boDelay || m.boExit < 1000 || 60000 < m.boExit
        else m.boDelay ≠ 0 || m.boExit ≠ 0)
    || (List.range 64).any (fun k => bit m.shed k && e.cell.isCjc k)
    || (m.rtcPresent && x.hostAttached))

def rsvMode (b : List Byte) : List Fail :=
  chk1 0x46 (bits (u8 b 0) 7 3 ≠ 0 || u8 b 1 ≠ 0 || u16 b 6 ≠ 0 || !allZero (slice b 16 16)
    || (bit (u8 b 0) 2 && (bits (u16 b 38) 15 4 ≠ 0 || u32 b 44 ≠ 0)))

/-- Fixed body lengths (Table: Section types); none where the length varies. -/
def fixedLen (ty : Nat) : Option Nat :=
  match ty with
  | 1 => some 864
  | 2 => some 272
  | 4 => some 192
  | 5 => some 704
  | 6 => some 46336
  | 9 => some 16
  | 11 => some 192
  | _ => none

/-- Section table faults (0x45). -/
def sectionsBad (img : List Byte) : Bool :=
  let t := secTable img
  let n := u16 img 96
  n = 0 || 16 < n || t.any (fun e => e.type = 0 || 12 < e.type) || dup (t.map (·.type))
    || [1, 2, 3, 4, 5, 6, 7, 8, 9, 12].any (fun ty => !hasSec img ty)
    || t.any (fun e => (match fixedLen e.type with
        | some l => e.len ≠ l
        | none => false)
      || e.off % 4 ≠ 0 || e.off < 128 + 16 * n || u32 img 8 < e.off + e.len)
    || t.any (fun e => t.any fun f => e.type ≠ f.type && e.off < f.off + f.len && f.off < e.off + e.len)

/-- The image with bytes 32..95 taken as zero, over which IMAGE_HASH is formed (R379). -/
def hashInput (img : List Byte) : List Byte := img.take 32 ++ List.replicate 64 0#8 ++ img.drop 96

/-- Steps 1 to 3 of R384 as codes: container, LEVEL, COST. `len` is ARG1 of the command. -/
def containerFails (x : StageCtx) (img : List Byte) (len : Nat) : List Fail :=
  chk1 0x40 (u32 img 0 ≠ 0x47464C46 || u16 img 6 ≠ 128)
  ++ chk1 0x41 (u16 img 4 ≠ 1)
  ++ chk1 0x42 (u32 img 8 ≠ len || img.length ≠ len || 4194304 < len || len % 4 ≠ 0 || len < 128)
  ++ chk1 0x43 (slice img 32 32 ≠ sha256 (hashInput img))
  ++ chk1 0x44 (u8 img 12 ≠ x.dev || !bit (u64 img 24) (u8 img 12))
  ++ chk1 0x45 (sectionsBad img)
  ++ chk1 0x46 (u8 img 13 ≠ 0 || !allZero (slice img 98 30) || (List.range (u16 img 96)).any fun i =>
      let e := slice img (128 + 16 * i) 16
      u16 e 2 ≠ 0 || u32 e 12 ≠ 0)
  ++ chk1 0x47 (u16 img 14 < x.plMin || x.plMax < u16 img 14)
  ++ chk1 0x48 (80000 < u32 img 20)

/-- Step 4 of R384: the failures of one section, by type. An absent panel or lamp section is one with no panel fitted, or every
lamp unused (R380, R427): what other sections name there is still checked. -/
def sectionFails (x : StageCtx) (img : List Byte) (e : Epoch) (ty : Nat) : List Fail :=
  let b := secBody img ty
  match ty with
  | 1 => rsvRoute b ++ failsRoute e
  | 2 => rsvCell b ++ failsCell e
  | 3 =>
    let l := failsCharBody b
    if l = [] then rsvChars b ++ failsChars e
    else l ++ rsvChars b ++ chk 0x59 (u16 b 0) fun i => charHeader b i && charTypeBad (parseChar (b.drop (charOff b i)))
  | 4 => rsvLoop b ++ failsLoop e
  | 5 => rsvDio b ++ failsDio e
  | 6 => rsvPoints b ++ failsPoints e
  | 7 => rsvGroups b ++ if b.length ≠ 4 + 4 * u32 b 0 then [(0x64, 0)] else failsGroups x e
  | 8 => rsvCall b ++ if b.length ≠ (callOffs b).2.2.2 then [(0x67, 0)] else failsCall x e
  | 9 => failsRed b e
  | 10 =>
    match e.panel with
    | some p => rsvPanel b ++ failsPanelLayout b p ++ failsPanel x e p
    | none => failsPanel x e {}
  | 11 => (if e.lamps.isSome then rsvLamps b else []) ++ failsLamps x e
  | 12 => rsvMode b ++ failsMode x b e
  | _ => []

/-- The lowest code of a list of failures, with the lowest entry index that shows it (R386). -/
def lowest : List Fail → Option Fail
  | [] => none
  | f :: t =>
    match lowest t with
    | none => some f
    | some g => if f.1 < g.1 || (f.1 = g.1 && f.2 < g.2) then some f else some g

/-- First failing section in ascending type. -/
def firstSection (x : StageCtx) (img : List Byte) (e : Epoch) : List Nat → Option (Nat × Fail)
  | [] => none
  | ty :: t =>
    match lowest (sectionFails x img e ty) with
    | some f => some (ty, f)
    | none => firstSection x img e t

/-- Validation of a staged image (R384, R386): the first failure as (section type, reason code, entry index), none
when the image passes. A container failure has section type 0. -/
def imageFault (x : StageCtx) (img : List Byte) (len : Nat) : Option (Nat × Fail) :=
  match lowest (containerFails x img len) with
  | some f => some (0, f)
  | none => firstSection x img (parseImage img) [1, 2, 3, 4, 5, 6, 7, 8, 9, 10, 11, 12]

/-- The validation that BOOT runs again on a committed image (R394): the checks that depend on the module. The image
passed the rest when it was staged, and its IMAGE_HASH and guard code are judged by the slot's readability. -/
def recheckOk (x : StageCtx) (e : Epoch) : Bool :=
  e.target = x.dev && bit e.deviceMask x.dev && x.plMin ≤ e.level && e.level ≤ x.plMax && e.cost ≤ 80000
    && lowest (failsGroups x e ++ failsCall x e ++ failsLamps x e
      ++ failsPanel x e (e.panel.getD {})) = none
    && !(e.mode.rtcPresent && x.hostAttached)

end Sys2Proof.Machine
end

