-- ==== Sys2Proof/Config.lean ====
section
/-! DEFINITION. What one part fixes at manufacture and what the manual leaves open, each an opaque constant or one
constant of the first production stepping. Nothing here has a value a proof can see, but for the stepping. -/

namespace Sys2Proof.Config

/-- SYS_STEP of the first production stepping (R491). Log 17: DESIGN CHOICE. -/
def sysStep : Nat := 0x00000100

/-- SYS_ID (R491). -/
def sysId : Nat := 0x00006410

/-- The factory MAC address (R291, R494): globally unique, programmed at manufacture. Log 18: DESIGN CHOICE. -/
opaque mac : Nat

/-- Whether an ECDSA P-256 signature verifies under the debug key in boot ROM (R498): over the 16 message bytes, with the
64-byte response. The key is not in the manual. -/
opaque debugSigOk : List Byte → List Byte → Bool

/-- The debug challenge drawn at the k-th draw since manufacture (R497, R498: new at each reset and failed verification).
-/
opaque challenge : Nat → BitVec 64

/-- L of a checkpoint copy in bytes: the layout behind it is internal to the device (R61). Applied to the tick.
Log 20: DESIGN CHOICE. -/
opaque ckptLen : Nat → Nat

/-- The module's internal temperature sensor in m°C (R407), at the k-th reading. -/
opaque internalTemp : Nat → Int

/-- LOUT status byte of output n recorded in a tick whose sample block was lost (R14 states none), by tick and output.
Log 21: DESIGN CHOICE. -/
opaque lostLout : Nat → Nat → BitVec 6

/-- DW4 and DW5 of PANEL_RAIL for a panel (R349 sends them to a chapter that gives none). -/
opaque panelRailDw4 : Nat → Nat
opaque panelRailDw5 : Nat → Nat

/-- A byte of a store region whose contents the manual leaves to the part (R356, R368), at the k-th read, by address word. -/
opaque storeByte : Nat → Nat → Byte

/-- ERR of a channel whose remote module answered that the range is outside its windows (R364, R366 give no code).
Log 23: DESIGN CHOICE. -/
opaque remoteWindowErr : Nat → BitVec 4

/-- Whether a read of a store at an address word meets an error its code does not correct, by the free counter (R366, R376).
Log 147: DESIGN CHOICE. -/
opaque storeBad : Nat → Nat → Bool

/-- Whether a stored event meets such an error when it is read back, by the free counter and SEQ (R348), and its address in the event
store (R378). Log 147: DESIGN CHOICE. -/
opaque entryBad : Nat → Nat → Bool
opaque eventAddr : Nat → Nat

/-- The first address at which a detect-only read-back finds a bad byte, none when it finds none, by the free counter (R376).
Log 147: DESIGN CHOICE. -/
opaque badBlock : Nat → Option Nat

/-- The addresses in flash at which programming pages, erasing their blocks or reading them back failed, by the free counter and the
number of pages (R368, R376). Log 147: DESIGN CHOICE. -/
opaque badPages : Nat → Nat → List Nat

/-- Where a circular log of flash stands, by the free counter (R371, R372). Log 147: DESIGN CHOICE. -/
opaque logPage : Nat → Nat

/-- Replacement blocks that flash came with beyond its data capacity (R368 gives no number). Log 18: DESIGN CHOICE. -/
opaque flashReserve : Nat

/-- The endpoint's link trained at 5.0 GT/s, and not at 2.5 GT/s (R320). Log 99: PRESUMED. -/
opaque linkFast : Bool

/-- Which entry of a stored list an address of its store holds, by store code and address (R378): modulo the list's length. -/
opaque entryAt : Nat → Nat → Nat

/-- Whether the signature of a Buryar image verifies (R472): by KEY_INDEX, over header bytes 0..63 and the signature. The
keys are not in the manual. Log 19: DESIGN CHOICE. -/
opaque imageSigOk : Nat → List Byte → Bool

/-- A byte of a checkpoint copy's internal layout (R61, R352), by tick and offset. -/
opaque ckptByte : Nat → Nat → Byte

/-- How long after its edge segment 0 of a Gust leaves, in ns, by tick (R297: within 5 µs). -/
opaque gustNs : Nat → Nat

/-- Length and bytes of a manager stream frame, by part and tick (R275 lists the content, no layout). -/
opaque streamLen : Nat → Nat
opaque streamByte : Nat → Nat → Byte

/-- How many diagnostic records the control firmware writes in a tick, and the fields of each (R353: the content is the
firmware's), by tick, record and field. -/
opaque logs : Nat → Nat
opaque logField : Nat → Nat → Nat → Nat

/-- Vendor ID and Subsystem Vendor ID (R517). -/
def vendorId : Nat := 0x1F6A

/-- The part is of grade X (R517: an ordering choice). Log 18: DESIGN CHOICE. -/
opaque gradeX : Bool

/-- Subsystem ID (Table: Ordering codes). -/
def subsystemId : Nat := if gradeX then 0x0002 else 0x0001

/-- A field of a survey record that the manual leaves open where its test did not run (R93), by record and field. -/
opaque unmeasured : Nat → Nat → Nat

/-- What the notch stages leave of bus pick-up in their bands (R114 gives bounds, no transfer function), by the notch centre
in force and the pick-up, both before the bound is applied. Log 101: DESIGN CHOICE. -/
opaque notchLeft : Nat → Int → Int

end Sys2Proof.Config
end

