-- ==== Sys2Proof/Machine/Codec.lean ====
section
/-! DEFINITION. The byte layouts of the chapters: Gust payload and input entries (R41, R43), digest and its entries
(R44, R45), tick record block (R59, R60), event, completion and REC descriptors (R344, R341, R351), event-store and
decimated entries (R371, R370), and their reading back. Every multi-byte field is little-endian (R5). -/

namespace Sys2Proof.Machine

/-- Packed fields of `w` bits, one per index below `n`, in `n * w / 8` bytes. -/
def packTbl (d w n : Nat) (t : Tbl Nat) : List Byte := leBytes (n * w / 8) (pack w (tab n fun i => tget d t i))

/-- The entries of a packed area other than `d`. -/
def unpackTbl (d w n : Nat) (bs : List Byte) : Tbl Nat :=
  let v := leNat bs
  (List.range n).filterMap fun i => if field v w i = d then none else some (i, field v w i)

/-- Gust input entry (R43). -/
def encInput (g : GustInput) : List Byte :=
  leBytes 1 g.opcode ++ leBytes 1 g.targetDev ++ leBytes 2 g.target ++ leBytes 1 g.locDev ++ leBytes 1 g.locInput
    ++ leBytes 2 g.tag ++ leBytes 4 g.arg ++ leBytes 4 g.reqTick

def decInput (b : List Byte) : GustInput :=
  { opcode := u8 b 0, targetDev := u8 b 1, target := u16 b 2, locDev := u8 b 4, locInput := u8 b 5, tag := u16 b 6,
    arg := u32 b 8, reqTick := u32 b 12 }

/-- Gust payload, 4 648 bytes (R41). -/
def encGust (g : Gust) : List Byte :=
  leBytes 6 g.tick ++ leBytes 1 (b2n g.fromStandby + 2 * b2n g.pending) ++ leBytes 1 g.inputs.length
    ++ leBytes 8 g.epochId ++ leBytes 6 g.pendApply ++ leBytes 2 0 ++ leBytes 8 g.digestRx ++ leBytes 8 g.pendId
    ++ packTbl 15 4 8192 g.pub ++ packTbl 0 2 1024 g.dgrp ++ packTbl 0 16 64 g.sess
    ++ (tab 8 fun i => match g.inputs[i]? with
        | some x => encInput x
        | none => leBytes 16 0).flatten

def decGust (b : List Byte) : Gust :=
  { tick := u48 b 0, fromStandby := bit (u8 b 6) 0, pending := bit (u8 b 6) 1, epochId := u64 b 8,
    pendApply := u48 b 16, digestRx := u64 b 24, pendId := u64 b 32, pub := unpackTbl 15 4 8192 (slice b 40 4096),
    dgrp := unpackTbl 0 2 1024 (slice b 4136 256), sess := unpackTbl 0 16 64 (slice b 4392 128),
    inputs := tab (min 8 (u8 b 7)) fun i => decInput (slice b (4520 + 16 * i) 16) }

/-- The four segments of a Gust (R297), without the time block of segment 0. -/
def gustSegments (p : List Byte) : List (List Byte) := tab 4 fun k => slice p (1162 * k) 1162

/-- Digest entries of one queue item (R45): a KIND 4 event with a DW5 takes a second, KIND 5 entry (R46). -/
def encEntry (e : DigestEntry) : List Byte :=
  match e.item with
  | .ev v =>
    leBytes 2 (v.point % 1024 + 1024 * v.kind + 8192 * b2n e.queued + 16384 * b2n v.stale)
      ++ leBytes 1 (v.old % 16 + 16 * (v.new % 16)) ++ leBytes 1 v.cause ++ leBytes 4 v.seq ++ leBytes 4 v.word
      ++ leBytes 4 (v.tick % 2 ^ 24 + 2 ^ 24 * (if v.kind = 1 then v.aux else 0))
      ++ (if v.kind = 4 && v.dw5 ≠ 0 then
            leBytes 2 (1024 * 5) ++ leBytes 2 0 ++ leBytes 4 v.seq ++ leBytes 4 v.dw5 ++ leBytes 4 (v.tick % 2 ^ 24)
          else [])
  | .act a =>
    leBytes 2 (a.target % 1024 + 1024 * 7) ++ leBytes 1 a.opcode ++ leBytes 1 a.targetDev ++ leBytes 4 a.arg
      ++ leBytes 4 (a.locDev % 256 + 256 * (a.locInput % 256) + 65536 * (a.ord % 256)) ++ leBytes 4 (a.tick % 2 ^ 24)

/-- How many of the 32 entries of a digest an item takes (R46). -/
def QItem.cost : QItem → Nat
  | .ev v => if v.kind = 4 && v.dw5 ≠ 0 then 2 else 1
  | .act _ => 1

/-- The latest tick not later than `n` whose low 24 bits are `low` (R45). -/
def tickBack (n low : Nat) : Nat := n - (n % 2 ^ 24 + 2 ^ 24 - low % 2 ^ 24) % 2 ^ 24

/-- Table: Digest entry leaves an operator-action entry no other OPCODE, and its RSV bits zero. -/
def actionOk (b : List Byte) : Bool := bits (u16 b 0) 15 13 = 0 && 0x20 ≤ u8 b 2 && u8 b 2 ≤ 0x26 && u8 b 11 = 0 && u8 b 15 = 0

/-- The entries of a digest (R45); an operator action that breaks R7 is no part of it. Log 117: DESIGN CHOICE. -/
def decEntries (n : Nat) : List (List Byte) → List DigestEntry
  | [] => []
  | b :: t =>
    let w := u16 b 0
    let kind := bits w 12 10
    let tk := tickBack n (u24 b 12)
    if kind = 7 && !actionOk b then decEntries n t
    else if kind = 7 then
      { item := .act { target := bits w 9 0, opcode := u8 b 2, targetDev := u8 b 3, arg := u32 b 4, locDev := u8 b 8,
                       locInput := u8 b 9, ord := u8 b 10, tick := tk }, queued := false } :: decEntries n t
    else if kind = 5 then decEntries n t
    else
      let dw5 := match t with
        | c :: _ => if kind = 4 && bits (u16 c 0) 12 10 = 5 then u32 c 8 else 0
        | [] => 0
      { item := .ev { kind := kind, point := bits w 9 0, old := u8 b 2 % 16, new := u8 b 2 / 16, cause := u8 b 3,
                      stale := bit w 14, word := u32 b 8, dw5 := dw5, aux := if kind = 1 then u8 b 15 else 0,
                      tick := tk, seq := u32 b 4 }, queued := bit w 13 } :: decEntries n t

/-- Digest payload (R44). -/
def encDigest (d : Digest) : List Byte :=
  let es := (d.entries.map encEntry).flatten
  leBytes 1 d.dev ++ leBytes 1 (b2n d.gustAbsent + 2 * b2n d.queued + 4 * b2n d.catchup) ++ leBytes 1 (es.length / 16)
    ++ leBytes 1 d.creditRet ++ leBytes 6 d.tick ++ leBytes 2 (min d.depth 65535) ++ leBytes 8 d.epochId
    ++ packTbl 15 4 128 d.pub ++ es

def decDigest (b : List Byte) : Digest :=
  let n := u48 b 4
  { dev := u8 b 0, gustAbsent := bit (u8 b 1) 0, queued := bit (u8 b 1) 1, catchup := bit (u8 b 1) 2,
    creditRet := u8 b 3, tick := n, depth := u16 b 10, epochId := u64 b 12, pub := unpackTbl 15 4 128 (slice b 20 64),
    entries := decEntries n (tab (min 32 (u8 b 2)) fun i => slice b (84 + 16 * i) 16) }

/-- Extension entry (R60). -/
def encExt : Ext → List Byte
  | .input e => leBytes 1 0x01 ++ encInput e
  | .remote i st => leBytes 1 0x02 ++ leBytes 2 i ++ leBytes 1 st
  | .dgrp g r => leBytes 1 0x03 ++ leBytes 2 g ++ leBytes 1 r
  | .sess s w => leBytes 1 0x04 ++ leBytes 1 s ++ leBytes 2 w
  | .action a => leBytes 1 0x05 ++ encEntry { item := .act a, queued := false }
  | .digestEntry d e => leBytes 1 0x08 ++ leBytes 1 d ++ encEntry e
  | .digestPub d j st => leBytes 1 0x09 ++ leBytes 1 d ++ leBytes 1 j ++ leBytes 1 st
  | .digestMissing d => leBytes 1 0x0A ++ leBytes 1 d
  | .placed e => leBytes 1 0x0B ++ encInput e
  | .status v => leBytes 1 0x0D ++ leBytes 1 v.cause ++ leBytes 1 (v.modeB % 16 + 16 * (v.modeA % 16)) ++ leBytes 1 0
      ++ leBytes 4 v.dw4 ++ leBytes 4 v.dw5
  | .epoch c tag id a => leBytes 1 0x0E ++ leBytes 1 (b2n c) ++ leBytes 2 tag ++ leBytes 8 id ++ leBytes 6 a ++ leBytes 2 0

/-- FLAGS of a record block (R59). -/
def Block.flags (b : Block) : Nat :=
  b2n b.gustAbsent + 2 * b2n b.island + 4 * b2n b.blockLost + 8 * b2n b.epochFirst + 16 * b2n b.catchup
    + 32 * b2n b.test + 64 * b2n b.mgrNew + 128 * b2n b.ckptCopy

def Block.extBytes (b : Block) : List Byte := (b.ext.map encExt).flatten

/-- The tick record block: the 352-byte fixed part, then the extension (R59, R60). -/
def encBlock (b : Block) : List Byte :=
  leBytes 6 b.tick ++ leBytes 1 b.flags ++ leBytes 1 b.absentCnt ++ leBytes 8 b.epochId
    ++ (tab 64 fun k => leBytes 4 (b.samples.getD k 0x80000000#32).toNat).flatten ++ leBytes 4 b.din
    ++ leBytes 8 b.dcond ++ (tab 8 fun c => leBytes 4 (b.count.getD c 0)).flatten ++ leBytes 4 b.mainsFreq
    ++ leBytes 8 b.rbk ++ (tab 8 fun n => leBytes 1 (b.lout.getD n 0)).flatten ++ leBytes 8 b.dout
    ++ leBytes 2 b.supply ++ leBytes 4 b.lamp ++ leBytes 2 b.extBytes.length ++ b.extBytes

/-- An entry of the decimated record (R370). -/
def decimBytes (b : Block) : List Byte :=
  let body := leBytes 6 b.tick ++ leBytes 1 b.flags ++ leBytes 1 b.absentCnt ++ leBytes 4 b.epochId
    ++ (tab 64 fun k => leBytes 4 (b.samples.getD k 0x80000000#32).toNat).flatten ++ leBytes 4 b.din
    ++ leBytes 8 b.dcond ++ (tab 8 fun c => leBytes 4 (b.count.getD c 0)).flatten ++ leBytes 4 b.mainsFreq ++ leBytes 2 b.supply
  body ++ leBytes 2 (crc16 body).toNat

/-- Eight words as a 32-byte descriptor whose DW7 carries the CRC over DW0..DW6 (R345) beside `hi`. -/
def descBytes (ws : List Nat) (hi : Nat) : List Byte :=
  let body := (ws.map (leBytes 4)).flatten
  body ++ leBytes 4 ((crc16 body).toNat + hi)

/-- Event descriptor words DW0..DW6 (R344, R347). -/
def eventWords (dev : Nat) (queued replayed dupd : Bool) (e : Ev) : List Nat :=
  [e.kind % 256 + 256 * (dev % 64) + 2 ^ 14 * (e.point % 1024) + 2 ^ 24 * (e.old % 16) + 2 ^ 28 * (e.new % 16),
   e.tick % 2 ^ 32,
   e.tick / 2 ^ 32 % 65536 + 65536 * (e.cause % 256) + 2 ^ 24 * b2n dupd + 2 ^ 25 * b2n replayed + 2 ^ 26 * b2n queued
     + 2 ^ 27 * b2n e.stale + 2 ^ 28 * b2n e.catchup,
   e.seq,
   if e.kind = 2 then 0 else e.word,
   (match e.kind with
    | 1 => (dev * 1024 + e.point) % 65536 + 65536 * (e.aux / 8 % 4) + 2 ^ 18 * (e.aux % 8)
    | 2 => e.word
    | 4 => e.dw5
    | _ => 0),
   e.epochSeq]

/-- Completion descriptor words DW0..DW6 (R341). -/
def complWords (c : Compl) : List Nat :=
  [c.status % 65536 + 65536 * (c.tag % 65536),
   c.op % 256 + 256 * (c.dev % 64) + 65536 * (c.ring % 64) + 2 ^ 24 * (c.detail % 256),
   c.index % 2 ^ 32, c.used % 2 ^ 32, c.used / 2 ^ 32 % 65536, c.a % 2 ^ 32, c.b % 2 ^ 32]

/-- The first seven words of a command descriptor, in memory order (R336, R345). -/
def Cmd.words (c : Cmd) : List Nat :=
  [c.op.toNat + 256 * c.dev.toNat + 2 ^ 14 * c.cls.toNat + 65536 * c.tag.toNat, c.apply.toNat % 2 ^ 32,
   c.apply.toNat / 2 ^ 32 + 65536 * c.arg0.toNat, c.arg1.toNat, c.arg2.toNat, c.arg3.toNat, c.arg4.toNat]

/-- The CRC of a descriptor holds (R345). -/
def Cmd.crcOk (c : Cmd) : Bool := c.crc = crc16 ((c.words.map (leBytes 4)).flatten)

/-- CRC-32 of IEEE 802.3 over bytes (R351). -/
def crc32 (bs : List Byte) : Nat := ((bs.foldl crc32Byte 0xFFFFFFFF#32) ^^^ 0xFFFFFFFF#32).toNat

/-- Decimated entry (R370), 320 bytes. -/
def encDecimated (b : Block) : List Byte :=
  let body := leBytes 6 b.tick ++ leBytes 1 b.flags ++ leBytes 1 b.absentCnt ++ leBytes 4 (b.epochId % 2 ^ 32)
    ++ (tab 64 fun k => leBytes 4 (b.samples.getD k 0x80000000#32).toNat).flatten ++ leBytes 4 b.din ++ leBytes 8 b.dcond
    ++ (tab 8 fun c => leBytes 4 (b.count.getD c 0)).flatten ++ leBytes 4 b.mainsFreq ++ leBytes 2 b.supply
  body ++ leBytes 2 (crc16 body).toNat

end Sys2Proof.Machine
end

