-- ==== Sys2Proof/Machine/Arith.lean ====
section
/-! DEFINITION. The exact arithmetic of the Rowan pipeline (04_measurement_cells R119). -/

namespace Sys2Proof.Machine

/-- a / b rounded to nearest, ties away from zero (R119), for b > 0. -/
def divr (a b : Int) : Int :=
  Int.sign a * ((2 * (a.natAbs : Int) + b) / (2 * b))

/-- a divided by 2^n under divr; a itself for n = 0 (R119). -/
def shr (a : Int) (n : Nat) : Int := if n = 0 then a else divr a (2 ^ n)

/-- floor(a / b), toward minus infinity, for b > 0 (R119). -/
def fdiv (a b : Int) : Int := Int.fdiv a b

/-- Bit by bit from the top: the largest r below 2^n·(the bits tried) with r² ≤ a. -/
def isqrtGo (a : Nat) : Nat → Nat → Nat
  | 0, r => r
  | n + 1, r => isqrtGo a n (if (r + 2 ^ n) * (r + 2 ^ n) ≤ a then r + 2 ^ n else r)

/-- The largest integer r with r² ≤ a, for 0 ≤ a < 2^128 (R119: no intermediate exceeds 128 bits). Log 39: DEDUCED. -/
def isqrt (a : Int) : Int := isqrtGo a.toNat 64 0

/-- x held within lo..hi. -/
def clampI (lo hi x : Int) : Int := if x < lo then lo else if hi < x then hi else x

/-- ceil(a / b) for naturals, b > 0. -/
def ceilDiv (a b : Nat) : Nat := (a + b - 1) / b

end Sys2Proof.Machine
end

