-- ==== Sys2Proof/Machine/Measure.lean ====
section
/-! DEFINITION. From recorded inputs to a point's value: sample words (R108, R120), lead compensation (R85 to R87), the
characteristics (R121 to R129), the NE 43 bands (R139) and the classing of every source kind (R169, R188, R195, R196). -/

namespace Sys2Proof.Machine

/-- Sample word of cell `k` in a block; a word the block does not hold reads as INVALID. -/
def Block.sample (b : Block) (k : Nat) : Nat := (b.samples.getD k 0x80000000#32).toNat

/-- DCOND, DOUT codes, DIN bit, COUNT snapshot, LOUT status byte and RBK bit of a block (R59). -/
def Block.dcondOf (b : Block) (c : Nat) : Nat := field b.dcond 2 c
def Block.doutOf (b : Block) (c : Nat) : Nat := field b.dout 2 c
def Block.dinOf (b : Block) (c : Nat) : Bool := bit b.din c
def Block.countOf (b : Block) (c : Nat) : Nat := b.count.getD c 0
def Block.loutOf (b : Block) (n : Nat) : Nat := b.lout.getD n 0
def Block.rbkOf (b : Block) (k : Nat) : Bool := bit b.rbk k
def Block.lampOf (b : Block) (n : Nat) : Nat := field b.lamp 2 n

/-- Flags and fields of a sample word (R108). -/
def swInvalid (w : Nat) : Bool := bit w 31
def swOpen (w : Nat) : Bool := bit w 30
def swOverload (w : Nat) : Bool := bit w 29
def swSettling (w : Nat) : Bool := bit w 28
def swSeam (w : Nat) : Bool := bit w 27
def swRange (w : Nat) : Nat := bits w 26 24
def swBad (w : Nat) : Bool := swInvalid w || swOpen w || swOverload w

/-- Scaled voltage of a sample word (R120). -/
def scaledV (w : Nat) : Int := sx 24 (bits w 23 0) * 4 ^ (5 - swRange w)

/-- V_comp of a cell and whether it is valid (R85 to R87). -/
def vComp (e : Epoch) (b : Block) (k : Nat) : Int × Bool :=
  let r := e.route.cellR k
  let v := scaledV (b.sample k)
  let i : Int := e.nominalNa k
  match r.leadMode with
  | 1 =>
    let w := b.sample r.leadCell
    let vc := scaledV w
    let lo : Int := -(2 ^ 23) * i
    (v - vc, !swBad w && decide (lo ≤ 2 * vc * 10 ^ 7) && decide (vc * 10 ^ 7 ≤ 50 * 2 ^ 23 * i))
  | 3 => (v - divr (i * r.leadMohm * 2 ^ 23) (10 ^ 10), true)
  | _ => (v, true)

/-- A cell whose sample, or whose lead cell's sample, carries SETTLING (R84). -/
def cellSettling (e : Epoch) (b : Block) (k : Nat) : Bool :=
  let r := e.route.cellR k
  swSettling (b.sample k) || (r.leadMode = 1 && swSettling (b.sample r.leadCell))

/-- A cell whose sample, or whose lead cell's sample, carries SEAM (R86). -/
def cellSeam (e : Epoch) (b : Block) (k : Nat) : Bool :=
  let r := e.route.cellR k
  swSeam (b.sample k) || (r.leadMode = 1 && swSeam (b.sample r.leadCell))

/-- K of the burden whose high terminal is on the cell's P_PIN (R121). -/
def burdenK (e : Epoch) (k : Nat) : Int :=
  match e.route.burHighOn (e.route.cellR k).pPin with
  | some x => if (e.route.bur x).is250 then 40000 else 200000
  | none => 0

/-- The input quantity X of a cell, by INPUT 0, 1 or 2 (R121). -/
def cellX (e : Epoch) (b : Block) (k input : Nat) : Int :=
  match input with
  | 0 => (vComp e b k).1
  | 1 => divr ((vComp e b k).1 * 78125) (e.nominalNa k)
  | _ => divr (scaledV (b.sample k) * burdenK e k) (2 ^ 23)

/-- Horner evaluation of one segment (R127), `f` the position in units of 2⁻³⁰ of the segment. -/
def evalSeg (s : Seg) (d : Int) : Int :=
  let f := if 30 ≤ s.w then fdiv d (2 ^ (s.w - 30)) else d * 2 ^ (30 - s.w)
  let y := s.c2 + shr (s.c3 * f) 30
  let y := s.c1 + shr (y * f) 30
  s.c0 + shr (y * f) 30

/-- A polynomial block at X, from the segment that starts at `lo` on; none when X lies in no segment (R127). -/
def evalSegs (x : Int) (g : Nat) : Int → List Seg → Option Int
  | _, [] => none
  | lo, s :: t => if x < lo then none else if x < lo + 2 ^ s.w then some (shr (evalSeg s (x - lo)) g) else
      evalSegs x g (lo + 2 ^ s.w) t

def evalPoly (p : Poly) (x : Int) : Option Int := evalSegs x p.g p.xBase p.segs

/-- Between two neighbouring rows of a table (R126). -/
def evalTable (x : Int) : List (Int × Int) → Int
  | [] => 0
  | [(_, e)] => e
  | (x0, e0) :: (x1, e1) :: t =>
    if x ≤ x0 then e0
    else if x < x1 then e0 + divr ((x - x0) * (e1 - e0)) (x1 - x0)
    else evalTable x ((x1, e1) :: t)

/-- The result lies in the number format and in ENG_MIN..ENG_MAX (R122). -/
def engOk (c : Characteristic) (y : Int) : Bool :=
  decide (-(2 ^ 31 - 1) ≤ y) && decide (y ≤ 2 ^ 31 - 1) && decide (c.engMin ≤ y) && decide (y ≤ c.engMax)

def inRange (c : Characteristic) (y : Option Int) : Option Int :=
  match y with
  | some v => if engOk c v then some v else none
  | none => none

/-- ENG of a characteristic that takes one quantity (R124 to R128); none is cause CHAR_RANGE (R122). -/
def applyChar (c : Characteristic) (x : Int) : Option Int :=
  inRange c <| match c.body with
  | .linear m b s => some (shr (x * m) s + b)
  | .sqrt x0 xspan qcut e0 espan =>
    let q := clampI 0 (2 ^ 31 - 1) (divr ((x - x0) * 2 ^ 30) xspan)
    let r := if q < qcut then 0 else isqrt (q * 2 ^ 30)
    some (e0 + divr (r * espan) (2 ^ 30))
  | .table rows => some (evalTable x rows)
  | .poly a => evalPoly a x
  | .thermo a _ => evalPoly a x

/-- E_cj of a thermocouple (R128); none when the cold-junction term cannot be formed (R129). -/
def coldJunction (e : Epoch) (b : Block) (c : Characteristic) (blockB : Poly) : Option Int :=
  let k := c.cjcCell
  if swBad (b.sample k) || !(vComp e b k).2 then none
  else
    match e.chars[c.cjcChar]? with
    | none => none
    | some d =>
      match applyChar d (cellX e b k 1) with
      | none => none
      | some t => evalPoly blockB t

/-- The NE 43 band of a current in nA (R139). -/
def ne43Band (x : Int) : Nat :=
  if x < 3600000 then 3 else if x < 3800000 then 1 else if x ≤ 20500000 then 0 else if x ≤ 21000000 then 2 else 4

/-- What a point reads of its source in a tick (R195): whether it is held, the first fault cause that applies (R196),
the value X and ENG when neither, the NE 43 band judged if any, the event's input word (R224), whether a published
entry it read was 15 (R225), and whether the value carries SEAM (R86, R129), which withdraws no value from use. -/
structure Reading where
  held : Bool := false
  fault : Option Nat := none
  x : Int := 0
  eng : Int := 0
  band : Option Nat := none
  word : Nat := 0
  stale : Bool := false
  seam : Bool := false
deriving DecidableEq, Repr

/-- The first cause, in the order listed, whose condition holds. -/
def firstCause : List (Bool × Nat) → Option Nat
  | [] => none
  | (c, code) :: t => if c then some code else firstCause t

/-- A cell source (R188 kind 1, R195, R196). Log 43: DEDUCED. -/
def readCell (e : Epoch) (b : Block) (c : PointCfg) : Reading :=
  let k := bits c.srcRef 5 0
  let w := b.sample k
  match e.chars[c.char]? with
  | none => { fault := some 0x25, word := w }
  | some ch =>
    let cjc := fun (q : Nat → Bool) => match ch.body with
      | .thermo _ _ => q ch.cjcCell
      | _ => false
    let x := cellX e b k ch.input
    let bad := swBad w
    let judged := ch.input = 2 && e.loop.ne43.getD k false && !bad
    let band := ne43Band x
    let vc := vComp e b k
    let thermo : Option (Option Int) := match ch.body with
      | .thermo _ bb => some (coldJunction e b ch bb)
      | _ => none
    let eng : Option Int := match thermo with
      | none => applyChar ch x
      | some none => none
      | some (some ecj) => applyChar ch (x + ecj)
    { held := cellSettling e b k || cjc (cellSettling e b)
      seam := cellSeam e b k || cjc (cellSeam e b)
      fault := firstCause [
        (swInvalid w || b.blockLost, 0x20), (swOpen w, 0x21), (swOverload w, 0x22), (!vc.2, 0x23),
        (decide (thermo = some none), 0x24), (b.rbkOf k, 0x26), (judged && band = 3, 0x27), (judged && band = 4, 0x28),
        (decide (eng = none), 0x25)]
      x := x, eng := eng.getD 0, band := if judged then some band else none, word := w }

/-- A source of kind 3 to 8 or 10, which gives an integer X: CHAR_EN applies a characteristic, else ENG is X, which must
fit the number format (R188). -/
def readInt (e : Epoch) (c : PointCfg) (x : Int) (held : Bool) (causes : List (Bool × Nat)) : Reading :=
  let eng := if c.charEn then (match e.chars[c.char]? with
      | some ch => applyChar ch x
      | none => none)
    else if -(2 ^ 31 - 1) ≤ x ∧ x ≤ 2 ^ 31 - 1 then some x else none
  { held := held, fault := firstCause (causes ++ [(decide (eng = none), 0x25)]), x := x, eng := eng.getD 0, word := tc 32 x }

/-- Channel `c` lies in its change window of R180 at tick `n`. -/
def inChange (d : Dec) (c n : Nat) : Bool := n ≤ tget 0 d.chanHold c && tget 0 d.chanHold c ≠ 0

/-- Faults common to the DIO state, counter and frequency sources (R169). -/
def dioCauses (b : Block) (c : Nat) : List (Bool × Nat) :=
  [(b.blockLost, 0x20), (decide (b.dcondOf c = 1), 0x2C), (decide (b.dcondOf c = 2), 0x2D)]

/-- What another point offers a derived point or a DEVIATION reference, in the row order of R210: held, a fault cause, or
its LAST_ENG. Log 42: DEDUCED. -/
def offered (q : PointState) : Bool × Option Nat × Int :=
  if q.state = 6 then (false, some 0x30, 0)
  else if q.f then (false, some 0x2F, 0)
  else if q.held || q.noValue then (true, none, 0)
  else (false, none, q.lastEng)

/-- Published state as this module last applied it; an entry never applied reads 15 (R42). -/
def pubOf (d : Dec) (i : Nat) : Nat := tget 15 d.pub i

/-- The reading of a point's own source, by SRC_KIND (R169, R188). Log 44: DEDUCED. Log 45: DEDUCED. -/
def readSource (e : Epoch) (b : Block) (d : Dec) (c : PointCfg) : Reading :=
  let r := c.srcRef
  match c.srcKind with
  | 1 => readCell e b c
  | 2 =>
    let q := tget {} d.points r
    let o := offered q
    let rd := readInt e c o.2.2 o.1 [(decide (o.2.1 = some 0x30), 0x30), (decide (o.2.1 = some 0x2F), 0x2F)]
    { rd with word := tc 32 q.lastEng }
  | 3 => readInt e c (b2n (b.dinOf r)) (inChange d r b.tick) (dioCauses b r ++ [(decide (b.dcondOf r = 3), 0x2B)])
  | 4 => readInt e c (b.doutOf r) (inChange d r b.tick) [((b.blockLost : Bool), 0x20)]
  | 5 => readInt e c (b.countOf r) (inChange d r b.tick) (dioCauses b r ++ [(decide (b.dcondOf r = 3), 0x2B)])
  | 6 =>
    let k := tget {} d.counters r
    readInt e c k.delta (inChange d r b.tick) (dioCauses b r ++ [(decide (b.dcondOf r = 3) || !k.deltaOk, 0x2B)])
  | 7 =>
    let k := tget {} d.counters r
    readInt e c k.freq (inChange d r b.tick) (dioCauses b r ++ [((!k.freqOk : Bool), 0x2B)])
  | 8 => readInt e c (if r < 5 then field b.supply 2 r else b2n (bit b.supply (r + 5))) false []
  | 9 =>
    let p := pubOf d r
    { fault := if p = 15 then some 0x2E else none, x := p, eng := p, word := p, stale := p = 15 }
  | 10 => readInt e c (sx 32 (r + 65536 * c.param)) false []
  | _ =>
    { fault := firstCause [((tget {} d.louts r).loopVolt, 0x2A), (bit (b.loutOf r) 4, 0x29)] }

/-- The reading with the DEVIATION reference taken in: its hold, its fault in the order of Table: Fault causes, and the
reference's ENG (R189, R195, R196). -/
def readPoint (e : Epoch) (b : Block) (d : Dec) (c : PointCfg) : Reading × Int :=
  let rd := readSource e b d c
  if c.cond = 5 then
    let o := offered (tget {} d.points (bits c.param 9 0))
    let rank := fun f => [0x20, 0x21, 0x22, 0x23, 0x24, 0x2E, 0x30, 0x2F, 0x26, 0x2C, 0x2D, 0x2B, 0x27, 0x28, 0x25, 0x2A,
      0x29].idxOf f
    let fault := match rd.fault, o.2.1 with
      | some a, some f => if rank f < rank a then some f else some a
      | some a, none => some a
      | none, f => f
    ({ rd with held := rd.held || o.1, fault := fault }, o.2.2)
  else (rd, 0)

end Sys2Proof.Machine
end

