-- ==== Sys2Proof/Machine/Points.lean ====
section
/-! DEFINITION. Deciding a point (07_rowan_alarm_points R189 to R211): the inhibit, timer and acknowledgement steps, the
state derivation, operator actions on points, and the epoch rules. -/

namespace Sys2Proof.Machine

/-- The point's committed state in a decision state. -/
def Dec.pt (d : Dec) (p : Nat) : PointState := tget {} d.points p

/-- One counter of the census moved by one (R219). -/
def bump (l : List Nat) (k : Nat) (up : Bool) : List Nat := l.modify k fun v => if up then v + 1 else v - 1

/-- Write a point's state; the census follows the change of STATE (R219). -/
def Dec.setPt (d : Dec) (p : Nat) (s : PointState) : Dec :=
  let old := (d.pt p).state
  { d with
    points := tset {} d.points p s
    census := if old = s.state then d.census else bump (bump d.census old false) s.state true }

/-- A sensor fault that an inhibit suppresses (R203, R204). -/
def faultHidden (c : PointCfg) (s : PointState) : Bool := s.supp && c.inhFault

/-- Table: State derivation (R204). -/
def deriveState (c : PointCfg) (s : PointState) : Nat :=
  if s.state = 6 then 6
  else if 0 < s.shelveRem then 5
  else if s.f && !faultHidden c s then (if s.u then 7 else 8)
  else if s.supp then 4
  else if s.a then (if s.u then 1 else 2)
  else if s.u then 3
  else 0

/-- The state code of an inhibit source (R194, R200): a lower-numbered point as of this tick, an equal or higher one as
committed, or a published entry. -/
def inhSource (cm d : Dec) (p : Nat) (c : PointCfg) : Nat :=
  match c.inhKind with
  | 1 => if c.inhRef < p then (d.pt c.inhRef).state else (cm.pt c.inhRef).state
  | 2 => pubOf d c.inhRef
  | _ => 15

/-- The inhibit demand I (R200). -/
def inhDemand (c : PointCfg) (src : Nat) : Bool :=
  c.inhKind ≠ 0 && src ≤ 3 && ((decide (src = 1 ∨ src = 2)) != c.inhInv)

/-- The inhibit step (R200). -/
def inhStep (c : PointCfg) (i : Bool) (s : PointState) : PointState :=
  if i then
    if s.supp then { s with inhCnt := 0 }
    else { s with supp := true, a := false, timer := 0, inhCnt := 0, u := if s.f && !c.inhFault then s.u else false }
  else if s.supp then
    if s.inhCnt = c.inhDelay then { s with supp := false, timer := 0 } else { s with inhCnt := s.inhCnt + 1 }
  else s

/-- The active test C (R189). -/
def condC (c : PointCfg) (s : PointState) (x e ref : Int) : Bool :=
  match c.cond with
  | 1 => decide (c.limHi < e)
  | 2 => decide (e < c.limLo)
  | 3 => decide (c.limHi < e)
  | 4 => decide (e < c.limLo)
  | 5 => decide (c.limHi < ((e - ref).natAbs : Int))
  | 6 => s.rc
  | 7 => decide (0 ≤ x ∧ x ≤ 31) && bit (tc 32 c.limHi) x.toNat
  | _ => false

/-- The return test R (R189). -/
def condR (c : PointCfg) (s : PointState) (x e ref : Int) : Bool :=
  match c.cond with
  | 1 => decide (e ≤ c.limHi - c.deadband)
  | 2 => decide (c.limLo + c.deadband ≤ e)
  | 3 => decide (e ≤ c.limHi - c.deadband)
  | 4 => decide (c.limLo + c.deadband ≤ e)
  | 5 => decide (((e - ref).natAbs : Int) ≤ c.limHi - c.deadband)
  | 6 => s.rr
  | 7 => !condC c s x e ref
  | _ => true

/-- The RATE window step at tick `n` (R190). -/
def rateStep (c : PointCfg) (n : Nat) (e : Int) (s : PointState) : PointState :=
  if c.cond = 6 ∧ n % c.param = 0 then
    let rate := divr ((e - s.rateRef) * 1000) c.param
    let s := if s.rrefValid then
        { s with rc := decide (c.limHi < rate ∨ rate < c.limLo),
                 rr := decide (c.limLo + c.deadband ≤ rate ∧ rate ≤ c.limHi - c.deadband) }
      else s
    { s with rateRef := e, rrefValid := true }
  else s

/-- The delay timer (R198). -/
def timerStep (c : PointCfg) (ca cr : Bool) (s : PointState) : PointState :=
  if !s.a then
    if ca then (if s.timer = c.onDelay then { s with a := true, timer := 0 } else { s with timer := s.timer + 1 })
    else { s with timer := 0 }
  else
    if cr then (if s.timer = c.offDelay then { s with a := false, timer := 0 } else { s with timer := s.timer + 1 })
    else { s with timer := 0 }

/-- What the source does to the point in a tick (R195, R196, R198, R199). -/
def sourceStep (c : PointCfg) (n : Nat) (rd : Reading) (ref : Int) (s : PointState) : PointState :=
  if rd.held then { s with held := true, rrefValid := false }
  else
    match rd.fault with
    | some cause =>
      { s with held := false, f := true, fcause := cause, timer := 0, rrefValid := false,
               band := match rd.band with
                 | some x => if 3 ≤ x then x else s.band
                 | none => s.band }
    | none =>
      let s := { s with held := false, f := false, fcause := 0, lastEng := rd.eng, noValue := false, band := rd.band.getD 5 }
      if s.supp then s
      else
        let s := rateStep c n rd.eng s
        timerStep c (condC c s rd.x rd.eng ref) (condR c s rd.x rd.eng ref) s

/-- U after the evaluation (R203), then the re-annunciation of an expiring shelf (R201). -/
def ackStep (c : PointCfg) (old : PointState) (expiring : Bool) (s : PointState) : PointState :=
  let riseA := s.a && !old.a
  let riseF := s.f && !old.f && !faultHidden c s
  let u := s.u || (!c.noack && s.shelveRem = 0 && (riseA || riseF))
  { s with u := u || (expiring && !c.noack && (s.a || (s.f && !faultHidden c s))) }

/-- The first cause that applies to an evaluation step (R222). -/
def evalCause (c : PointCfg) (old s : PointState) (expired : Bool) : Nat :=
  if s.f && !old.f then s.fcause
  else if s.a && !old.a then c.cond
  else if s.supp && !old.supp then 0x09
  else if old.a && !s.a then 0x08
  else if old.f && !s.f then 0x0D
  else if old.supp && !s.supp then 0x0A
  else if expired then 0x0B
  else 0

/-- BAND and PRIO of a point as an event's AUX byte (R45). -/
def auxOf (c : PointCfg) (s : PointState) : Nat := s.band % 8 + 8 * (c.prio % 4)

/-- The evaluation of one point in one tick, in full (R204): its next state and the event it raises. -/
def pointEval (c : PointCfg) (n p : Nat) (src : Nat) (rd : Reading) (ref : Int) (shelveApplied : Bool)
    (old : PointState) : PointState × Option Ev :=
  if old.state = 6 then ({ old with held := false }, none)
  else
    let counting := decide (0 < old.shelveRem) && !shelveApplied
    let s := if counting then { old with shelveRem := old.shelveRem - 1 } else old
    let expiring := counting && s.shelveRem = 0
    let s := inhStep c (inhDemand c src) s
    let s := sourceStep c n rd ref s
    let s := ackStep c old expiring s
    let s := { s with state := deriveState c s }
    (s, if s.state = old.state then none else some
      { kind := 1, point := p, old := old.state, new := s.state, cause := evalCause c old s expiring,
        stale := rd.stale || (c.inhKind = 2 && src = 15), word := rd.word, aux := auxOf c s, tick := n })

/-- Evaluate point `p` in a tick: `cm` is the state committed at the end of the tick before (R194). -/
def evalPoint (e : Epoch) (b : Block) (cm : Dec) (w : Work) (p : Nat) : Work :=
  let c := e.pt p
  if c.srcKind = 0 then w
  else
    let (rd, ref) := readPoint e b w.d c
    let (s, ev) := pointEval c b.tick p (inhSource cm w.d p c) rd ref (p ∈ w.shelved) (w.d.pt p)
    { w with d := w.d.setPt p s, evs := w.evs ++ ev.toList }

/-- Points `from`, `from`+1, … , `n` of them, in ascending order (R193 step 3). -/
def evalPoints (e : Epoch) (b : Block) (cm : Dec) : Nat → Nat → Work → Work
  | 0, _, w => w
  | n + 1, k, w => evalPoints e b cm n (k + 1) (evalPoint e b cm w k)

/-! Operator actions on points (R206 to R208). -/

/-- An action's location may ACK, SHELVE and UNSHELVE the point (R207). -/
def mayAct (c : PointCfg) (cls : Option Nat) : Bool :=
  match cls with
  | some k => bit c.ackMask k
  | none => false

/-- Write a point's state after an action and raise its event. It comes before the tick's published entries are read, and its
STALE_INPUT is clear (R225). Log 151: DESIGN CHOICE. -/
def actOn (w : Work) (n p cause : Nat) (c : PointCfg) (s : PointState) : Work :=
  { w with
    d := w.d.setPt p s
    evs := w.evs ++ [{ kind := 1, point := p, old := (w.d.pt p).state, new := s.state, cause := cause,
                       aux := auxOf c s, tick := n }] }

/-- PERM_REFUSED carries the point's state as both states (R208). -/
def refuseOn (w : Work) (n p : Nat) (c : PointCfg) : Work := actOn w n p 0x15 c (w.d.pt p)

def rederive (c : PointCfg) (s : PointState) : PointState := { s with state := deriveState c s }

/-- ACK of one point (R208); `loud` raises PERM_REFUSED, which scopes 1 and 2 do not. -/
def ackPoint (e : Epoch) (cls : Option Nat) (n : Nat) (loud : Bool) (w : Work) (p : Nat) : Work :=
  let c := e.pt p
  let s := w.d.pt p
  if c.srcKind ≠ 0 ∧ (s.state = 1 ∨ s.state = 3 ∨ s.state = 7) then
    if mayAct c cls then actOn w n p 0x10 c (rederive c { s with u := false })
    else if loud then refuseOn w n p c else w
  else w

/-- SHELVE for `dur` ticks (R201, R208). -/
def shelvePoint (e : Epoch) (cls : Option Nat) (n dur : Nat) (w : Work) (p : Nat) : Work :=
  let c := e.pt p
  let s := w.d.pt p
  if c.srcKind = 0 ∨ s.state = 6 then w
  else if mayAct c cls then
    let w := actOn w n p 0x11 c (rederive c { s with shelveRem := dur, u := false })
    { w with shelved := p :: w.shelved }
  else refuseOn w n p c

/-- UNSHELVE (R208), with the re-annunciation of R201. -/
def unshelvePoint (e : Epoch) (cls : Option Nat) (n : Nat) (w : Work) (p : Nat) : Work :=
  let c := e.pt p
  let s := w.d.pt p
  if c.srcKind = 0 ∨ s.state ≠ 5 then w
  else if mayAct c cls then
    let s := { s with shelveRem := 0 }
    actOn w n p 0x12 c (rederive c { s with u := s.u || (!c.noack && (s.a || (s.f && !faultHidden c s))) })
  else refuseOn w n p c

/-- OOS_SET (R202). Log 47: DEDUCED. -/
def oosSetPoint (e : Epoch) (cls : Option Nat) (n : Nat) (w : Work) (p : Nat) : Work :=
  let c := e.pt p
  let s := w.d.pt p
  if c.srcKind = 0 ∨ s.state = 6 then w
  else if cls = some 15 then
    actOn w n p 0x13 c { s with state := 6, a := false, f := false, u := false, supp := false, rrefValid := false,
                                fcause := 0, timer := 0, inhCnt := 0, shelveRem := 0, held := false }
  else refuseOn w n p c

/-- OOS_CLEAR (R202). -/
def oosClearPoint (e : Epoch) (cls : Option Nat) (n : Nat) (w : Work) (p : Nat) : Work :=
  let c := e.pt p
  let s := w.d.pt p
  if c.srcKind = 0 ∨ s.state ≠ 6 then w
  else if cls = some 15 then actOn w n p 0x14 c { s with state := 0, noValue := true }
  else refuseOn w n p c

/-- The points an ACK acts on, by SCOPE (R206, R208). -/
def ackTargets (e : Epoch) (scope target : Nat) : List Nat :=
  match scope with
  | 0 => [target % 1024]
  | 1 => (e.point.points.filter fun x => (true, target % 64) ∈ x.2.mgrp).map (·.1)
  | _ => (e.point.points.filter fun x => (true, target % 1024) ∈ x.2.dgrp).map (·.1)

/-- A point action of the record applied in the action step (R208). -/
def pointAction (e : Epoch) (n : Nat) (g : GustInput) (w : Work) : Work :=
  let cls := e.locClass g.locDev g.locInput
  let p := g.target % 1024
  match g.opcode with
  | 0x20 => (ackTargets e (g.arg % 4) g.target).foldl (ackPoint e cls n (g.arg % 4 = 0)) w
  | 0x22 => shelvePoint e cls n g.arg w p
  | 0x23 => unshelvePoint e cls n w p
  | 0x24 => oosSetPoint e cls n w p
  | 0x25 => oosClearPoint e cls n w p
  | _ => w

/-! The epoch rules (R209). -/

/-- A point is changed between two images (R209). -/
def pointChanged (o e : Epoch) (p : Nat) : Bool :=
  let c := e.pt p
  decide (o.pt p ≠ c) || (c.charEn && decide (o.chars[c.char]? ≠ e.chars[c.char]?))

/-- A point that starts: STATE 0, NOVALUE set, BAND 5 (R197, R209). -/
def startedPoint : PointState := { noValue := true, band := 5 }

/-- The epoch rule on one point; `o` is the image of the last decided epoch, none when it is no longer held (R389). -/
def epochPoint (o : Option Epoch) (e : Epoch) (n : Nat) (w : Work) (p : Nat) : Work :=
  let c := e.pt p
  let s := w.d.pt p
  let was : Bool := match o with
    | some x => x.configured p
    | none => decide (s ≠ {})
  let changed : Bool := match o with
    | some x => pointChanged x e p
    | none => true
  let ev := fun new => if s.state = new then [] else
    [({ kind := 1, point := p, old := s.state, new := new, cause := 0x0C, tick := n } : Ev)]
  let census := w.d.census
  match was, decide (c.srcKind ≠ 0) with
  | false, false => w
  | true, false =>
    { w with d := { w.d with points := tset {} w.d.points p {}, census := bump census s.state false }, evs := w.evs ++ ev 0 }
  | false, true =>
    { w with d := { w.d with points := tset {} w.d.points p startedPoint, census := bump census 0 true } }
  | true, true =>
    if changed then
      let t := { startedPoint with state := if s.state = 6 then 6 else 0 }
      { w with d := w.d.setPt p t, evs := w.evs ++ ev t.state }
    else w

/-- The epoch rules on every point, in ascending order. -/
def epochPoints (o : Option Epoch) (e : Epoch) (n : Nat) (w : Work) : Work :=
  (List.range 1024).foldl (epochPoint o e n) w

/-- Every configured point started, as after admission or at the manager's S0 (R315, R481), over the points of the epoch
last decided, `o`: one that `e` leaves unconfigured keeps its state for the first tick's rules, and one that `e` adds
starts by them (R209, R389). -/
def startPoints (o : Option Epoch) (e : Epoch) (d : Dec) : Dec :=
  let was := (((o.map (·.point.points)).getD []).filter fun x => x.2.srcKind ≠ 0).map (·.1)
  let pts := was.map fun p => (p, if e.configured p then startedPoint else d.pt p)
  { d with points := pts.foldl (fun t x => tset {} t x.1 x.2) [], census := tab 9 fun st => (pts.filter fun x => x.2.state = st).length }

end Sys2Proof.Machine
end

