-- ==== Sys2Proof/Machine/Groups.lean ====
section
/-! DEFINITION. Module groups and domain groups (07_rowan_alarm_points R212 to R218, R225), and the census check (R219). -/

namespace Sys2Proof.Machine

/-- The Active and Unacknowledged columns of Table: Point states. -/
def isActive (st : Nat) : Bool := st = 1 || st = 2 || st = 7 || st = 8
def isUnack (st : Nat) : Bool := st = 1 || st = 3 || st = 7

/-- A group state from its members' (state, PRIO) (R213). -/
def groupCode (ms : List (Nat × Nat)) : Nat :=
  let prio := ms.foldl (fun m x => if (isActive x.1 || isUnack x.1) && m < x.2 then x.2 else m) 0
  b2n (ms.any fun x => isUnack x.1) + 2 * b2n (ms.any fun x => isActive x.1) + 4 * prio

/-- A member transition that counts for first-out (R214). -/
def counts (old new : Nat) : Bool := (new = 1 || new = 7) && !isActive old

/-- The smaller of two keys (tick, domain point ID) (R214). -/
def keyLt (a b : Nat × Nat) : Bool := a.1 < b.1 || (a.1 = b.1 && a.2 < b.2)

def minKey : List (Nat × Nat) → Option (Nat × Nat)
  | [] => none
  | k :: t =>
    match minKey t with
    | none => some k
    | some m => if keyLt m k then some m else some k

/-- One evaluation of a group (R213, R214): its members' states and the counting transitions applied in it. -/
def evalGroup (ms keys : List (Nat × Nat)) (g : GroupState) : GroupState :=
  let st := groupCode ms
  if st = 0 then {}
  else
    match minKey keys, g.foValid with
    | none, _ => { g with state := st }
    | some k, false => { state := st, foValid := true, foTick := k.1, foDpid := k.2 }
    | some k, true =>
      if keyLt k (g.foTick, g.foDpid) then { state := st, foValid := true, foTick := k.1, foDpid := k.2 }
      else { g with state := st }

/-- Group word (R218). -/
def groupWord (dom : Bool) (g : GroupState) : Nat :=
  (if g.foValid then g.foDpid % 65536 else 0) + 65536 * b2n g.foValid + 131072 * b2n dom

/-- The event of a group evaluation, if any (R218). -/
def groupEvent (n idx : Nat) (dom stale : Bool) (old g : GroupState) : Option Ev :=
  let ev := fun cause => some
    ({ kind := 2, point := idx, old := old.state, new := g.state, cause := cause, stale := stale,
       word := groupWord dom g, tick := n } : Ev)
  if old.state ≠ g.state then ev 0x40
  else if g.foValid && (!old.foValid || old.foDpid ≠ g.foDpid) then ev 0x41
  else none

/-- The points that are members of module group `g` (R212). -/
def moduleMembers (e : Epoch) (g : Nat) : List (Nat × PointCfg) :=
  e.point.points.filter fun x => x.2.srcKind ≠ 0 && (true, g) ∈ x.2.mgrp

/-- Module group `g` in step 4 of R193 (R215). -/
def evalModuleGroup (e : Epoch) (dev n : Nat) (w : Work) (g : Nat) : Work :=
  let ms := moduleMembers e g
  let old := tget {} w.d.mgroups g
  let keys := (w.evs.filter fun v => v.kind = 1 && counts v.old v.new && ms.any fun m => m.1 = v.point).map
    fun v => (n, dev * 1024 + v.point)
  let new := evalGroup (ms.map fun m => ((w.d.pt m.1).state, m.2.prio)) keys old
  { w with
    d := { w.d with mgroups := tset {} w.d.mgroups g new }
    evs := w.evs ++ (groupEvent n g false false old new).toList }

def evalModuleGroups (e : Epoch) (dev n : Nat) (w : Work) : Work :=
  (List.range 64).foldl (evalModuleGroup e dev n) w

/-- The KIND 1 entries the block holds, with their device: step 1 of R216. -/
def memberEntries (b : Block) : List (Nat × Ev) :=
  b.ext.filterMap fun x => match x with
    | .digestEntry dev { item := .ev v, .. } => if v.kind = 1 then some (dev, v) else none
    | _ => none

/-- Devices whose digest the block records as missing (R49). -/
def missingDevs (b : Block) : List Nat :=
  b.ext.filterMap fun x => match x with
    | .digestMissing dev => some dev
    | _ => none

/-- Apply the member entries to the member state table, for the points the section lists (R216). -/
def applyMembers (e : Epoch) (b : Block) (d : Dec) : Dec :=
  { d with
    members := (memberEntries b).foldl (fun t x =>
      let id := x.1 * 1024 + x.2.point
      if e.groups.any fun m => m.dpid = id then tset 0 t id x.2.new else t) d.members }

/-- Domain group `g` in step 5 of R193 (R216). -/
def evalDomainGroup (e : Epoch) (b : Block) (w : Work) (g : Nat) : Work :=
  let ms := e.groups.filter fun m => m.group = g
  if ms = [] && tget {} w.d.dgroups g = {} then w
  else
    let old := tget {} w.d.dgroups g
    let keys := ((memberEntries b).filter fun x => counts x.2.old x.2.new
        && ms.any fun m => m.dpid = x.1 * 1024 + x.2.point).map fun x => (x.2.tick, x.1 * 1024 + x.2.point)
    let new := evalGroup (ms.map fun m => (tget 0 w.d.members m.dpid, m.prio)) keys old
    let stale := ms.any fun m => m.dpid / 1024 ∈ missingDevs b
    { w with
      d := { w.d with dgroups := tset {} w.d.dgroups g new }
      evs := w.evs ++ (groupEvent b.tick g true stale old new).toList }

/-- Step 5 of R193 on a serving module. -/
def evalDomainGroups (e : Epoch) (b : Block) (w : Work) : Work :=
  (List.range 1024).foldl (evalDomainGroup e b) { w with d := applyMembers e b w.d }

/-- Configured points counted per state code, independently of the counters (R219). -/
def censusCount (e : Epoch) (d : Dec) : List Nat :=
  tab 9 fun st => (e.point.points.filter fun x => x.2.srcKind ≠ 0 && (d.pt x.1).state = st).length

/-- The census is in balance (R219, R220). -/
def censusOk (e : Epoch) (d : Dec) : Bool := d.census = censusCount e d

end Sys2Proof.Machine
end

