-- ==== Sys2Proof/Machine/Call.lean ====
section
/-! DEFINITION. Squall (08_squall_engineer_call): the session word (R236), applying it on every module (R241), silence,
duty and watchkeeper inputs (R242 to R247), the tier step (R238) and the destinations (R248, R249). -/

namespace Sys2Proof.Machine

/-- Fields of a session word (R236). -/
def swTier (w : Nat) : Nat := bits w 2 0
def swGen (w : Nat) : Nat := bits w 5 3
def swDuty (w : Nat) : Nat := bits w 9 6
def swWk (w : Nat) : Nat := bits w 11 10

/-- The session word of a session's state (R236). -/
def sessWord (q : SessState) : Nat := q.tier % 8 + 8 * (q.gen % 8) + 64 * (q.duty % 16) + 1024 * (q.wk % 4)

/-- The word of a session that is enabled, else 0 (R236). -/
def wordIf (enable : Bool) (q : SessState) : Nat := if enable then sessWord q else 0

/-- The word in force of session `s` on this module. -/
def Dec.word (d : Dec) (s : Nat) : Nat := tget 0 d.sess s

/-- Apply a session word: the silences of the session end when the call has something new to announce (R241). -/
def applyWord (d : Dec) (s word : Nat) : Dec :=
  let old := d.word s
  let clear := swTier old ≠ swTier word || swGen old ≠ swGen word || swWk old < swWk word
  { d with sess := tset 0 d.sess s word, sil := if clear then tset 0 d.sil s 0 else d.sil }

/-- Z of a SILENCE: the host's ZONE_MASK, or the zones of the silence map entry of its location (R242). -/
def silenceZones (e : Epoch) (g : GustInput) : Option Nat :=
  if g.locDev = 0xFF then some (bits g.arg 15 0)
  else (e.call.sils.find? fun z => z.dev = g.locDev && z.input = g.locInput).map (·.zones)

/-- The silence acts on the word in force (R242). -/
def silenceMatches (d : Dec) (s : Nat) (g : GustInput) : Bool :=
  bit g.arg 22 || (bits g.arg 18 16 = swTier (d.word s) && bits g.arg 21 19 = swGen (d.word s))

/-- A SILENCE of the record, on every module; on the serving module also its call inputs (R242, R246, R252). -/
def applySilence (e : Epoch) (serving : Bool) (g : GustInput) (w : Work) : Work :=
  let s := g.target % 64
  let z := silenceZones e g
  let acts := bit g.arg 23 && silenceMatches w.d s g
  let zz := if acts then z.getD 0 else 0
  let d := { w.d with sil := tset 0 w.d.sil s ((tget 0 w.d.sil s) ||| zz) }
  let ins : List CallIn := if !serving then [] else
    (if zz ≠ 0 then [.silenced s] else [])
    ++ (if bit g.arg 23 && z = none then [.noMatch s] else [])
    ++ (if bit g.arg 24 then
          match e.locClass g.locDev g.locInput with
          | some k => if k = 15 || bit (e.sess s).wkResetMask k then [.wkReset s] else [.wkRefused s]
          | none => [.wkRefused s]
        else [])
  { w with d := d, callIns := w.callIns ++ ins }

/-- A DUTY_SELECT of the record, at the serving module (R244). -/
def applyDuty (e : Epoch) (serving : Bool) (g : GustInput) (w : Work) : Work :=
  let s := g.target % 64
  if !serving then w
  else
    let ok := match e.locClass g.locDev g.locInput with
      | some k => k = 15 || bit (e.sess s).dutyMaskClass k
      | none => false
    { w with callIns := w.callIns ++ [if ok && !(e.sess s).follow then .duty s (bits g.arg 3 0) else .dutyRefused s] }

/-- A session is changed between two images (R253). -/
def sessionChanged (o e : Epoch) (s : Nat) : Bool :=
  decide (o.sess s ≠ e.sess s)
    || decide ((o.call.binds.filter fun b => b.session = s) ≠ (e.call.binds.filter fun b => b.session = s))

/-- The epoch rule on one session (R253); a change of DUTY raises its event behind that of the reset (R245). Log 119:
DEDUCED. -/
def epochSession (o : Option Epoch) (e : Epoch) (w : Work) (s : Nat) : Work :=
  let q := tget {} w.d.sessions s
  let changed : Bool := match o with
    | some x => sessionChanged x e s
    | none => true
  if changed then
    let q' : SessState := { gen := q.gen, duty := (e.sess s).dutyInit, ghist := q.ghist }
    let en := (o.map fun x => (x.sess s).enable).getD true
    { w with
      d := { w.d with sessions := tset {} w.d.sessions s q' }
      callIns := w.callIns ++ (if q.tier ≠ 0 || q.wk ≠ 0 then [.epochReset s q.tier (wordIf en q)] else [])
        ++ (if q.duty ≠ q'.duty then [.epochDuty s (wordIf en { q' with duty := q.duty })] else []) }
  else w

def epochSessions (o : Option Epoch) (e : Epoch) (w : Work) : Work := (List.range 64).foldl (epochSession o e) w

/-- GEN goes on by one, and GHIST remembers the tick (R229, R236). -/
def SessState.nextGen (q : SessState) (n : Nat) : SessState :=
  { q with gen := (q.gen + 1) % 8, ghist := (n :: q.ghist).take 8 }

/-- The call event of a step that took a session from `q` to `r` (R252); `en` is its ENABLE. -/
def callEvent (n s cause : Nat) (q r : SessState) (en : Bool := true) : Ev :=
  { kind := 3, point := s, old := q.tier, new := r.tier, cause := cause, word := wordIf en r + 65536 * wordIf en q, tick := n }

/-- The engineer on duty in session `s` after the action step (R244). -/
def dutyAfter (d : Dec) (ins : List CallIn) (s : Nat) : Nat :=
  ins.foldl (fun k i => match i with
    | .duty t x => if t = s then x else k
    | _ => k) (tget {} d.sessions s).duty

/-- DUTY becomes `k`: DUTY_CHANGE, and a new generation while a call stands (R245). -/
def setDuty (n s k : Nat) (q : SessState) (en : Bool := true) : SessState × List Ev :=
  if q.duty = k then (q, [])
  else
    let r := { q with duty := k }
    let r := if q.tier ≠ 0 then r.nextGen n else r
    (r, [callEvent n s 0x55 q r en])

/-- One action outcome of session `s`, in record order (R252). -/
def callInput (n s : Nat) (en : Bool) (x : SessState × List Ev) (i : CallIn) : SessState × List Ev :=
  let q := x.1
  let ev := fun cause => (q, x.2 ++ [callEvent n s cause q q en])
  match i with
  | .duty t k => if t = s then (let r := setDuty n s k q en; (r.1, x.2 ++ r.2)) else x
  | .dutyRefused t => if t = s then ev 0x15 else x
  | .wkRefused t => if t = s then ev 0x15 else x
  | .noMatch t => if t = s then ev 0x15 else x
  | .silenced t => if t = s then ev 0x54 else x
  | .epochReset t tier word =>
    if t = s then (q, x.2 ++ [{ kind := 3, point := s, old := tier, new := q.tier, cause := 0x0C,
                                word := wordIf en q + 65536 * word, tick := n }]) else x
  | .epochDuty t word =>
    if t = s then (q, x.2 ++ [{ kind := 3, point := s, old := q.tier, new := q.tier, cause := 0x55,
                                word := wordIf en q + 65536 * word, tick := n }]) else x
  | .wkReset _ => x

/-- TIER raised to at least 2 as WK becomes 3 (R247). -/
def wkCall (n : Nat) (q : SessState) : SessState :=
  let q := { q with wk := 3 }
  if q.tier < 2 then ({ q with tier := 2, tcnt := 0 }).nextGen n else q

/-- The watchkeeper step (R246): `arm` is the published state of the arming input as applied. -/
def wkStep (c : SessionCfg) (n s arm : Nat) (reset : Bool) (q : SessState) : SessState × List Ev :=
  let asserted := arm = 1 || arm = 2
  let usable := arm ≤ 3
  let ev := fun cause (r : SessState) => (r, [callEvent n s cause q r])
  if !c.wkEn then (q, [])
  else if reset && (q.wk = 1 || q.wk = 2) then ev 0x5A { q with wcnt := 0, wk := 1 }
  else if reset && q.wk = 3 then ev 0x5A { q with wcnt := 0, wk := if asserted then 1 else 0 }
  else if q.wk = 0 && asserted then ev 0x56 { q with wk := 1, wcnt := 0 }
  else if (q.wk = 1 || q.wk = 2) && usable && !asserted then ev 0x57 { q with wk := 0, wcnt := 0 }
  else if q.wk = 1 || q.wk = 2 then
    let r := { q with wcnt := q.wcnt + 1 }
    if r.wcnt = c.wkT2 then ev 0x59 (wkCall n r)
    else if r.wcnt = c.wkT1 then ev 0x58 { r with wk := 2 }
    else (r, [])
  else (q, [])

/-- A binding whose group demands a call (R237). -/
def bindDemands (d : Dec) (b : Binding) : Bool :=
  let st := (tget {} d.dgroups b.group).state
  bit st 0 && bit b.prioMask (bits st 3 2)

/-- TIMEOUT of tier `t` (R231). -/
def timeoutOf (c : SessionCfg) (t : Nat) : Nat := c.timeouts.getD (t - 1) 0

/-- The tier step (R238). -/
def tierStep (c : SessionCfg) (n s : Nat) (demand newAlarm : Bool) (q : SessState) : SessState × List Ev :=
  if q.tier = 0 then
    if demand then
      let r := ({ q with tier := 1, tcnt := 0 }).nextGen n
      (r, [callEvent n s 0x50 q r])
    else (q, [])
  else if !demand && q.wk ≠ 3 then
    let r := { q with tier := 0, tcnt := 0 }
    (r, [callEvent n s 0x52 q r])
  else
    let r := if newAlarm then q.nextGen n else q
    let ev1 := if newAlarm then [callEvent n s 0x53 q r] else []
    let r := { r with tcnt := r.tcnt + 1 }
    if r.tier < c.ntiers + 1 && timeoutOf c r.tier ≠ 0 && r.tcnt = timeoutOf c r.tier then
      let t := ({ r with tier := r.tier + 1, tcnt := 0 }).nextGen n
      (t, ev1 ++ [callEvent n s 0x51 r t])
    else (r, ev1)

/-- Squall decides session `s` of tick `n` (R227, R238, R252). A command that names a disabled session has its effect on the duty and
its events. Log 152: DESIGN CHOICE. -/
def evalSession (e : Epoch) (n : Nat) (w : Work) (s : Nat) : Work :=
  let c := e.sess s
  let ins := w.callIns
  let q0 := tget {} w.d.sessions s
  let (q, evI) := ins.foldl (callInput n s c.enable) (q0, [])
  if !c.enable then { w with d := { w.d with sessions := tset {} w.d.sessions s q }, evs := w.evs ++ evI }
  else
    let (q, evF) := if c.follow then setDuty n s (dutyAfter w.d ins c.dutyFrom) q else (q, [])
    let reset := ins.any fun i => decide (i = .wkReset s)
    let arm := match w.arm with
      | some t => tget 15 t c.wkArmRef
      | none => pubOf w.d c.wkArmRef
    let (q, evW) := wkStep c n s arm reset q
    let bs := e.call.binds.filter fun b => b.session = s
    let hot := bs.filter (bindDemands w.d)
    let (q, evT) := tierStep c n s (hot ≠ []) (hot.any fun b => b.group ∉ q.uprev) q
    let q := { q with uprev := (bs.filter fun b => bit (tget {} w.d.dgroups b.group).state 0).map (·.group) }
    { w with d := { w.d with sessions := tset {} w.d.sessions s q }, evs := w.evs ++ evI ++ evF ++ evW ++ evT }

/-- Sessions from `k` on, `m` of them, in ascending order. -/
def evalSessions (e : Epoch) (n : Nat) : Nat → Nat → Work → Work
  | 0, _, w => w
  | m + 1, k, w => evalSessions e n m (k + 1) (evalSession e n w k)

/-- The session words decided, as the Gust carries them; a disabled session has word 0 (R236). -/
def decidedWord (e : Epoch) (d : Dec) (s : Nat) : Nat :=
  wordIf (e.sess s).enable (tget {} d.sessions s)

/-- The destinations of this module that are driven from the words applied, with their entry index (R248). -/
def driven (e : Epoch) (d : Dec) (dev : Nat) : List (Dest × Nat) :=
  e.call.dests.zipIdx.filter fun x =>
    let t := x.1
    let w := d.word t.session
    t.dev = dev && ((swTier w ≠ 0 && bit t.tierMask (swTier w - 1) && bit t.dutyMask (swDuty w)) || (t.prewarn && swWk w = 2))
      && !(t.audible && bit (tget 0 d.sil t.session) t.zone)

/-- Flash period of a pattern in ticks (R249). -/
def flashPeriod (pattern : Nat) : Nat := [0, 2000, 1000, 500].getD pattern 0

/-- A lamp of a pattern is lit in tick `n` (R249). -/
def flashOn (pattern n : Nat) : Bool :=
  pattern = 0 || n % flashPeriod pattern < flashPeriod pattern / 2

/-- The sessions with a driven page destination on a panel (R249). -/
def pageSet (e : Epoch) (d : Dec) (dev panel : Nat) : List Nat :=
  (List.range 64).filter fun s => (driven e d dev).any fun x => x.1.kind = 3 && x.1.index = panel && x.1.session = s

end Sys2Proof.Machine
end

