-- ==== Sys2Proof/Machine/Decide.lean ====
section
/-! DEFINITION. Deciding one tick (R193) from the record block, the epoch and the committed state alone (R15, R63): the
begin step, the counter gates and loop-output tables, the points, the groups, the sessions, and the outputs decided. -/

namespace Sys2Proof.Machine

/-- What a decision takes beside the block and the committed state: the epoch in force, the tick it took force at, the
image of the last decided epoch if held, the device number, and whether the module serves the manager role. -/
structure Ctx where
  e : Epoch
  since : Nat := 0
  old : Option Epoch := none
  dev : Nat := 0
  serving : Bool := true
deriving DecidableEq, Repr

/-! Step 0: the extension entries that change the state tables (replay procedure of R67). -/

def applyTable (d : Dec) (x : Ext) : Dec :=
  match x with
  | .remote i st => { d with pub := tset 15 d.pub i st }
  | .dgrp g r => { d with dgrp := tset 0 d.dgrp g r }
  | .sess s w => applyWord d s w
  | _ => d

/-! Counters (R166 to R168). -/

/-- The snapshot half of a counter's tick: the delta (R166), and what spoils the running gate (R168). Where the tick of a counter
reset has DCOND 3 the next delta counts from the last good snapshot, the one before the reset. Log 149: DESIGN CHOICE. -/
def counterSnap (c : DioChan) (b : Block) (ch : Nat) (fresh kReset gReset : Bool) (k : CounterState) : CounterState :=
  if c.countEdge = 0 then {}
  else
    let n := b.countOf ch
    let ok := b.dcondOf ch ≠ 3
    { k with
      delta := (n + 2 ^ 32 - k.last) % 2 ^ 32
      deltaOk := k.lastOk && !fresh && !kReset
      last := if ok then n else k.last
      lastOk := ok || k.lastOk
      bad := k.bad || b.dcondOf ch = 1 || b.dcondOf ch = 2
      startOk := k.startOk && !fresh && !kReset && !gReset
      freqOk := k.freqOk && !fresh }

/-- The gate of a counter channel ends in tick `n` (R167). -/
def gateDue (c : DioChan) (n : Nat) : Bool := c.countEdge ≠ 0 && n % c.gateTicks = 0

/-- FREQ at a gate end (R167, R168). -/
def gateStep (c : DioChan) (b : Block) (ch : Nat) (k : CounterState) : CounterState :=
  if gateDue c b.tick then
    let n := b.countOf ch
    let ok := b.dcondOf ch ≠ 3
    let valid := k.startOk && ok && !k.bad
    let e : Int := if c.countEdge = 3 then 2 else 1
    { k with
      freq := if valid then divr (((n + 2 ^ 32 - k.start) % 2 ^ 32 : Nat) * 1000000) (c.gateTicks * e) else k.freq
      freqOk := valid, start := n, startOk := ok, bad := false }
  else k

/-! Low loop voltage (R146). -/

/-- The counts of one loop output after a tick's status byte (R144, R146). -/
def loutCount (st : Nat) (l : LoutState) : LoutState :=
  let comp := bit st 1
  let fc := bit st 2
  let offp := bit st 3
  { l with
    compCnt := if comp && !fc && !offp then l.compCnt + 1 else 0
    failCnt := if fc && comp then l.failCnt + 1 else 0
    offCnt := if offp then l.offCnt + 1 else 0
    resumeCnt := if fc && !comp && bit st 5 then l.resumeCnt + 1 else 0 }

/-- What the counts call for in a tick: rows 1 to 4 of Table: Low loop voltage. -/
def loutDue (l : LoutState) : Option Nat :=
  if 3 ≤ l.compCnt then some 1 else if 3 ≤ l.failCnt then some 2 else if 1000 ≤ l.offCnt then some 3
  else if 100 ≤ l.resumeCnt then some 4 else none

/-- The counts start again from zero (R146, R147). -/
def LoutState.restart (l : LoutState) : LoutState := { l with compCnt := 0, failCnt := 0, offCnt := 0, resumeCnt := 0 }

/-- Loop counts, LOOP_VOLTAGE conditions and the off state of the outputs named, or of all, start afresh (R147). -/
def Dec.restartThese (is : List Nat) (d : Dec) : Dec :=
  { d with louts := is.foldl (fun t n => tset {} t n { lastUa := (tget ({} : LoutState) t n).lastUa }) d.louts }
def Dec.restartLouts (d : Dec) : Dec := d.restartThese (List.range 8)

/-- One tick of Table: Low loop voltage. -/
def loutRow (l : LoutState) : LoutState :=
  match loutDue l with
  | some 1 => { l.restart with loopVolt := true }
  | some 2 => { l.restart with off := true }
  | some 3 => { l.restart with off := false }
  | some 4 => { l.restart with loopVolt := false }
  | _ => l

def loutStep (st : Nat) (l : LoutState) : LoutState := loutRow (loutCount st l)

/-! The begin step. -/

/-- The counter and loop-output steps still to do in this tick, by number: gate `c` of DIO0..DIO7, output `n` as 8 + n. -/
def prepStep (e : Epoch) (b : Block) (w : Work) (i : Nat) : Work :=
  if i ∈ w.preps then w
  else
    let d := if i < 8 then { w.d with counters := tmod {} w.d.counters i (gateStep (e.chan i) b i) }
      else { w.d with louts := tmod {} w.d.louts (i - 8) (loutStep (b.loutOf (i - 8))) }
    { w with preps := i :: w.preps, d := d }

def prepAll (e : Epoch) (b : Block) (w : Work) : Work := (List.range 16).foldl (prepStep e b) w

/-- A channel changed under R180. -/
def chanChanged (o e : Epoch) (c : Nat) : Bool :=
  let x := o.chan c
  let y := e.chan c
  decide (x.dir ≠ y.dir) || decide (x.type3 ≠ y.type3) || decide (x.sense ≠ y.sense)
    || decide (x.debounceUs ≠ y.debounceUs)

/-- First-tick rules on the digital side and the loop outputs (R147, R180, R182). -/
def epochField (x : Ctx) (d : Dec) : Dec :=
  let e := x.e
  let was := fun c => match x.old with
    | some o => chanChanged o e c
    | none => true
  let hold := (List.range 32).foldl (fun t c =>
    if was c then tset 0 t c (x.since + ceilDiv (e.chan c).debounceUs 1000) else t) d.chanHold
  let lch := fun n => match x.old with
    | some o => decide (o.lout n ≠ e.lout n) || decide (o.route.srcPins 5 n ≠ e.route.srcPins 5 n)
    | none => true
  let louts := (List.range 8).foldl (fun t n =>
    if lch n then tset {} t n { lastUa := (tget ({} : LoutState) t n).lastUa } else t) d.louts
  { d with chanHold := hold, louts := louts }

/-- The snapshot half of every counter (R166), with the resets of R182 in the first tick of an epoch. -/
def snapCounters (x : Ctx) (b : Block) (fresh : Bool) (d : Dec) : Dec :=
  let kr := fun c => b.epochFirst && (match x.old with
    | some o => decide ((o.chan c).countEdge ≠ (x.e.chan c).countEdge)
    | none => true)
  let gr := fun c => b.epochFirst && (match x.old with
    | some o => decide ((o.chan c).gateTicks ≠ (x.e.chan c).gateTicks)
    | none => true)
  { d with counters := (List.range 8).foldl (fun t c =>
      tmod {} t c (counterSnap (x.e.chan c) b c fresh (kr c) (gr c))) d.counters }

/-- Step 1 of R193: the epoch rules, in the first tick of a new epoch (R209, R216, R253). -/
def epochRules (x : Ctx) (b : Block) (w : Work) : Work :=
  if b.epochFirst then
    let w := { w with d := epochField x w.d }
    let w := epochPoints x.old x.e b.tick w
    if x.serving then
      let w := epochSessions x.old x.e w
      { w with d := { w.d with members := w.d.members.filter fun m => x.e.groups.any fun g => g.dpid = m.1 } }
    else w
  else w

/-- One operator input of the record, in record order (R208, R242, R244). A DUTY_SELECT acts at the serving module, whatever
its device number; a mode request (opcode 0x02) changes no point, group or session. -/
def applyInput (x : Ctx) (n : Nat) (w : Work) (i : Ext) : Work :=
  match i with
  | .input g =>
    if g.targetDev = x.dev || g.targetDev = 0xFF || (g.opcode = 0x26 && x.serving) then
      match g.opcode with
      | 0x21 => applySilence x.e x.serving g w
      | 0x26 => applyDuty x.e x.serving g w
      | _ => pointAction x.e n g w
    else w
  | _ => w

/-- R484 on a serving module: how long MAINS_FREQ has been zero, and how long it has not. -/
def mainsStep (x : Ctx) (b : Block) (d : Dec) : Dec :=
  if !x.serving || !x.e.mode.boMains then d
  else if b.mainsFreq = 0 then { d with moCnt := d.moCnt + 1, moBack := 0 }
  else { d with moCnt := 0, moBack := d.moBack + 1 }

/-- Sessions of the silences that the block shows dropped under R243. -/
def droppedSilences (b : Block) : List Nat :=
  b.ext.filterMap fun x => match x with
    | .digestEntry _ { item := .act a, .. } => some (a.target % 64)
    | _ => none

/-- Steps 0 to 2 of R193, once in a tick: the state tables, the epoch rules, the inputs in record order, with
the silences that R243 dropped behind them, as in the block, and the counter snapshots. -/
def beginEval (x : Ctx) (b : Block) (w : Work) : Work :=
  if w.begun then w
  else
    let fresh := w.d.lastTick ≠ some (b.tick - 1) || b.tick = 0
    let w := { w with begun := true, d := b.ext.foldl applyTable w.d }
    let w := { w with d := snapCounters x b fresh (mainsStep x b w.d) }
    let w := epochRules x b w
    let w := b.ext.foldl (applyInput x b.tick) w
    { w with callIns := w.callIns ++ if x.serving then (droppedSilences b).map CallIn.noMatch else [] }

/-- Everything before point 0: the begin step, then the gates and loop outputs not stepped yet. -/
def readyEval (x : Ctx) (b : Block) (w : Work) : Work := prepAll x.e b (beginEval x b w)

/-- Points up to `p` (not beyond it) evaluated; the cursor never goes back. -/
def evalUpTo (x : Ctx) (b : Block) (cm : Dec) (p : Nat) (w : Work) : Work :=
  let w := readyEval x b w
  if p ≤ w.cursor then w
  else { evalPoints x.e b cm (p - w.cursor) w.cursor w with cursor := p }

/-- The whole EVALUATE phase of a tick, from wherever it has come to (R193). -/
def evalAll (x : Ctx) (b : Block) (cm : Dec) (w : Work) : Work :=
  if w.evalDone then w
  else
    let w := evalUpTo x b cm 1024 w
    let w := evalModuleGroups x.e x.dev b.tick w
    let w := if x.serving then evalDomainGroups x.e b w else w
    { w with evalDone := true }

/-- Sessions up to `s` (not beyond it) decided, on a serving module; the cursor never goes back (R227). -/
def callUpTo (x : Ctx) (b : Block) (s : Nat) (w : Work) : Work :=
  if s ≤ w.callCursor || !x.serving then w
  else { evalSessions x.e b.tick (s - w.callCursor) w.callCursor w with callCursor := s }

/-- The events of the tick with their SEQ (R223) and the epoch they were decided in. -/
def number (e : Epoch) (catchup : Bool) (seq : Nat) : List Ev → List Ev
  | [] => []
  | v :: t => { v with seq := seq, epochSeq := e.seq, catchup := catchup } :: number e catchup ((seq + 1) % 2 ^ 32) t

/-- The status events of a block as events, in the order raised (R60, R223). -/
def statusEvs (b : Block) : List Ev :=
  b.ext.filterMap fun i => match i with
    | .status v => some { kind := 4, point := 0, old := v.modeB, new := v.modeA, cause := v.cause, word := v.dw4,
                          dw5 := v.dw5, tick := b.tick }
    | _ => none

/-- The local actions of a block, in record order (R60 type 0x05), with the CATCHUP of its tick (R263). -/
def blockActions (b : Block) : List QItem :=
  b.ext.filterMap fun i => match i with
    | .action a => some (.act { a with catchup := b.catchup })
    | _ => none

/-! The outputs decided in a tick (R142, R170, R176, R249, R428). -/

/-- The failure current of an output in µA (R141). -/
def failUa (o : LoopOut) : Nat := if o.failUp then 21500 else 3500

/-- SAFE of a loop output, with the last current staged (R141, R149). -/
def loutSafe (o : LoopOut) (last : Option Nat) : LoutCmd :=
  if !o.enable then .off
  else match o.safe, last with
    | 1, _ => .ua (failUa o)
    | 2, some x => .ua x
    | _, _ => .off

/-- The commanded current from an ENG (R142). -/
def loutUa (o : LoopOut) (eng : Int) : Nat :=
  let d := o.eHi - o.eLo
  let a := eng - o.eLo
  let (a, d) := if d < 0 then (-a, -d) else (a, d)
  (divr (clampI 3800000 20500000 (4000000 + divr (a * 16000000) d)) 1000).toNat

/-- The command of an enabled output (R142, R146, R147), and the state it leaves. -/
def loutDecide (o : LoopOut) (src : PointState) (l : LoutState) : LoutCmd × LoutState :=
  if !o.enable then (.off, l)
  else
    let l := if l.off && !l.loopVolt && !src.f then { l.restart with off := false } else l
    let want :=
      if src.state = 6 || (src.held && src.noValue && !src.f) then
        match l.lastUa with
        | some x => .ua x
        | none => loutSafe o none
      else if src.f then .ua (failUa o)
      else .ua (loutUa o src.lastEng)
    let cmd := if l.off then .off else if l.loopVolt then .ua (failUa o) else want
    let l := { l with wantUa := match want with
      | .ua x => some x
      | .off => none }
    (cmd, match cmd with
      | .ua x => { l with lastUa := some x }
      | .off => l)

/-- The value of a repeat output from an ENG (R176). -/
def repeatVal (r : Repeat) (eng : Int) : Nat :=
  let d := r.eHi - r.eLo
  let a := eng - r.eLo
  let (a, d) := if d < 0 then (-a, -d) else (a, d)
  let lo : Int := min r.fLo r.fHi
  let hi : Int := max r.fLo r.fHi
  (clampI lo hi (r.fLo + divr (a * ((r.fHi : Int) - r.fLo)) d)).toNat

/-- A repeat value as an output command (R177, R178). -/
def repeatCmd (outSrc v : Nat) : DioCmd := if outSrc = 3 then .freq v else .duty v

/-- The value a repeat output takes: none means its SAFE state (R176). `last` is one more than the last value staged,
zero when none has been; that number is kept where OUT_SRC goes between 3 and 4, whose units differ. Log 150: DESIGN CHOICE. -/
def repeatDecide (r : Repeat) (src : PointState) (last : Nat) : Option Nat :=
  let keep := if last = 0 then none else some (last - 1)
  if src.state = 6 then keep
  else if src.f then some r.fFail
  else if src.held && src.noValue then keep
  else some (repeatVal r src.lastEng)

/-- SAFE of a DIO output (R154, R179): `lastOn` and `lastRep` are what was last staged. -/
def dioSafe (c : DioChan) (r : Repeat) (lastOn : Bool) (lastRep : Nat) : DioCmd :=
  if c.dir ≠ 2 then .off
  else if c.outSrc = 3 || c.outSrc = 4 then
    match c.safe with
    | 1 => repeatCmd c.outSrc r.fFail
    | 2 => if lastRep = 0 then .off else repeatCmd c.outSrc (lastRep - 1)
    | _ => .off
  else
    match c.safe with
    | 1 => .on
    | 2 => if lastOn then .on else .off
    | _ => .off

/-- SAFE of DIO output `ch` with what the decision state last staged. -/
def dioSafeOf (e : Epoch) (d : Dec) (ch : Nat) : DioCmd :=
  dioSafe (e.chan ch) (e.rep ch) (tget 0 d.dioLast ch = 1) (tget 0 d.repLast ch)

/-- The command of DIO channel `ch` in a tick (R170, R176, R249). -/
def dioDecide (e : Epoch) (d : Dec) (drv : List (Dest × Nat)) (ch : Nat) : DioCmd :=
  let c := e.chan ch
  if c.dir ≠ 2 then .off
  else
    match c.outSrc with
    | 1 => if (bit c.stateMask (d.pt c.point).state) != c.invert then .on else .off
    | 2 => if drv.any fun x => x.1.kind = 1 && x.1.index = ch then .on else .off
    | 3 =>
      match repeatDecide (e.rep ch) (d.pt c.point) (tget 0 d.repLast ch) with
      | some v => .freq v
      | none => dioSafeOf e d ch
    | 4 =>
      match repeatDecide (e.rep ch) (d.pt c.point) (tget 0 d.repLast ch) with
      | some v => .duty v
      | none => dioSafeOf e d ch
    | _ => .off

/-- A lamp lit at its CURRENT and DUTY, or dark. -/
def lampCmd (l : LampCfg) (on : Bool) : LampCmd := if on then .lit l.current l.duty else .dark

/-- The decision of lamp `i` in tick `n` (R249, R428). -/
def lampDecide (e : Epoch) (d : Dec) (drv : List (Dest × Nat)) (n i : Nat) : LampCmd :=
  let l := e.lamp i
  match l.src with
  | 1 =>
    let st := (d.pt l.ref).state
    lampCmd l (bit l.maskOn st && (!bit l.maskFlash st || flashOn l.pattern n))
  | 2 =>
    match drv.find? fun x => x.1.kind = 2 && x.1.index = i with
    | some x => lampCmd l (flashOn x.1.pattern n)
    | none => .dark
  | 3 =>
    let r := tget 0 d.dgrp l.ref
    lampCmd l (if bit r 0 then flashOn l.pattern n else bit r 1)
  | _ => .dark

/-- SAFE of lamp `i` (R427, R431). -/
def lampSafe (e : Epoch) (n i : Nat) : LampCmd :=
  let l := e.lamp i
  if l.src = 0 then .dark
  else match l.safe with
    | 1 => lampCmd l true
    | 2 => lampCmd l (flashOn 3 n)
    | _ => .dark

/-- The mark that goes with a command of output `i`. -/
def loutMark (e : Epoch) (i : Nat) (cmd : LoutCmd) (l : LoutState) : LoutMark :=
  { placed := (e.lout i).enable && e.route.srcPins 5 i ≠ [], prot := cmd = .off && l.off, fail := cmd = .ua (failUa (e.lout i)),
    volt := cmd = .ua (failUa (e.lout i)) && l.loopVolt }

/-- The marks of the SAFE states, which no rule of Table: Low loop voltage has put there. -/
def safeMarks (e : Epoch) (louts : List LoutCmd) : List LoutMark := tab 8 fun i => loutMark e i (louts.getD i .off) {}

/-- Every output decided in tick `n`, and the decision state that remembers them: what a mode that decides nothing stages does not
count as staged last. Log 136: DESIGN CHOICE. -/
def decideOutputs (x : Ctx) (n : Nat) (d : Dec) : Staged × Dec :=
  let drv := driven x.e d x.dev
  let lo := tab 8 fun i => loutDecide (x.e.lout i) (d.pt (x.e.lout i).point) (tget {} d.louts i)
  let dio := tab 32 fun c => dioDecide x.e d drv c
  let lamps := tab 16 fun i => lampDecide x.e d drv n i
  let d := { d with
    louts := lo.zipIdx.foldl (fun t z => tset {} t z.2 z.1.2) d.louts
    dioLast := dio.zipIdx.foldl (fun t z => tset 0 t z.2 (if z.1 = .on then 1 else 0)) d.dioLast
    repLast := dio.zipIdx.foldl (fun t z => match z.1 with
      | .freq v => tset 0 t z.2 (v + 1)
      | .duty v => tset 0 t z.2 (v + 1)
      | _ => t) d.repLast }
  ({ louts := lo.map (·.1), marks := lo.zipIdx.map fun z => loutMark x.e z.2 z.1.1 z.1.2, dio := dio, lamps := lamps }, d)

/-- Every loop output at its SAFE state (R149). -/
def safeLouts (e : Epoch) (d : Dec) : List LoutCmd := tab 8 fun i => loutSafe (e.lout i) (tget {} d.louts i).lastUa

/-- Every output at its SAFE state (R149, R179, R431). -/
def safeOutputs (e : Epoch) (n : Nat) (d : Dec) : Staged :=
  { louts := safeLouts e d, marks := safeMarks e (safeLouts e d)
    dio := tab 32 fun c => dioSafeOf e d c
    lamps := tab 16 fun i => lampSafe e n i }

/-- The declared power-off state of DIO output `ch` (R154, R179): off, or held as last staged by a decision. -/
def dioPowerOff (e : Epoch) (d : Dec) (ch : Nat) : DioCmd :=
  if (e.chan ch).pwroffHold then dioSafe { e.chan ch with safe := 2 } (e.rep ch) (tget 0 d.dioLast ch = 1) (tget 0 d.repLast ch) else .off

/-- The power-off states of the power-fail warning (R149, R179, R431): loops safe, DIO off or held, lamps off. -/
def powerOffOutputs (e : Epoch) (d : Dec) : Staged :=
  { louts := safeLouts e d, marks := safeMarks e (safeLouts e d)
    dio := tab 32 fun c => dioPowerOff e d c
    lamps := tab 16 fun _ => .dark }

/-- Every output off (R149, R179, R431: OFF to RECOVERY). -/
def offOutputs : Staged :=
  { louts := tab 8 fun _ => .off, dio := tab 32 fun _ => .off, lamps := tab 16 fun _ => .dark }

end Sys2Proof.Machine
end

