-- ==== Sys2Proof/Machine/State.lean ====
section
/-! DEFINITION. The module's whole state as plain data, its faults and refusals, and the state right after the backup
domain and the logic side have been without any supply. One module of any role: the role is part of the state (R1). -/

namespace Sys2Proof.Machine

/-- Faults. No command of this block ends in one: the manual gives every happening a next state, and an access or a
descriptor that breaks a rule is itself answered with one (R324, R339). -/
inductive Fault where
deriving DecidableEq, Repr

/-- Refusals: `notModelled` by exec's arms for a row whose meaning is not written (safe: the run ends). -/
inductive Refusal where
  | notModelled (mnemonic : String)
deriving DecidableEq, Repr

/-- A register pair (R8, R395): the applied 64-bit value, the held first write, and what each register reads. -/
structure Pair where
  applied : Nat := 0
  held : Option Nat := none
  lo : Word := 0
  hi : Word := 0
deriving DecidableEq, Repr

/-- A command that has been decoded and not completed: its origin, the descriptor, the tick it starts or started;
`late` is kept for its completion (R337), and the tick it was decoded in for that of a rejected one (R341). -/
structure Job where
  cmd : Cmd
  origin : Origin
  start : Nat
  late : Bool := false
  decoded : Nat := 0
deriving DecidableEq, Repr

/-- SYS, RST and the strap (R467, R477, R491, R492): role and variant, mode, violations, reset and block-reset state,
NODE_OK, V33_OUT, and the power-fail sequence. Roles are coded as Table: Join request, variants as DOM_ROLE. Log 95: DEDUCED. -/
structure Sys where
  role : Nat := 3
  variant : Nat := 2
  guard : Bool := false
  code : Nat := 0
  ratio : Nat := 0
  mode : Nat := 1
  prevMode : Nat := 1
  violCnt : Nat := 0
  violLast : Word := 0
  /-- RST_CAUSE with the CRC of its record (R21, R461). -/
  rstCause : Nat := 1
  rstCrc : BitVec 16 := crc16 [1#8]
  recoveryOnce : Bool := false
  nodeOk : Bool := false
  hbLost : Bool := false
  v33 : Bool := false
  vinA : Nat := 0
  vinB : Nat := 0
  presentA : Bool := false
  presentB : Bool := false
  overA : Bool := false
  overB : Bool := false
  vbat : Bool := false
  /-- Tick of the power-fail warning (R457); the sequence runs to its end. -/
  powerFail : Option Nat := none
  /-- A reset with this cause begins in the Lull of the apply tick (R474, R481). -/
  resetDue : Option Nat := none
  blkCode : Nat := 0
  blkState : Nat := 0
  blkForced : Bool := false
  blkJob : Option Job := none
  perstHigh : Bool := true
  /-- RESET is held after the power-fail sequence until the power-on reset releases (R457). -/
  porHeld : Bool := false
  /-- An external device still holds RESET_N low (R511). -/
  extLow : Bool := false
  /-- BOOT found both boost inductors of panel B (R509). -/
  boostB : Bool := false
deriving DecidableEq, Repr

/-- CLK and time (R29, R31, R303, R493, R495): the tick in progress, its phase (0 SAMPLE, 1 EVALUATE, 2 PUBLISH, 3 LULL,
4 after the cut-off), domain time, the UTC offset, the reference and its validity test. -/
structure Time where
  num : Nat := 0
  phase : Nat := 4
  domain : Bool := false
  lastRec : Option Nat := none
  shadow : Option Nat := none
  off : Pair := {}
  offset : Int := 0
  offNext : Option Int := none
  /-- The edge at which the host pair took effect: no step of R30 in that tick. -/
  offTick : Option Nat := none
  tref : Word := 0x80800000
  trefNext : Option Word := none
  refValid : Bool := false
  refCount : Nat := 0
  ppsOut : Bool := false
  /-- Ticks left of the 100 ms pulse on PPS_IO (R303, R512). -/
  ppsLeft : Nat := 0
  /-- TICK_IO is an output that carries this module's edges (R19, R512). -/
  tickOut : Bool := false
  lock : BitVec 8 := 0xFF
deriving DecidableEq, Repr

/-- A degradation cause (R483) with its instance: 1 feed, 2 ring port, 3 barrier, 4 stuck switch, 5 engine not cold,
6 failed engine, 7 audit mismatch, 8 disputed engine, 9 divergent takeover, 10 checkpoint lost, 11 queue overflow,
12 time alignment, 13 island, 14 no standby manager, 15 flash reserve. -/
abbrev Cause := Nat × Nat

/-- Configuration (R374, R385, R388 to R394): the epoch in force with the tick it took force at, the epoch last decided
in, the ID in force before the last switch, what is staged, the eight flash slots, former images kept while an audit
runs (R271), and the switch announced to this module. -/
structure Cfg where
  e : Epoch := {}
  has : Bool := false
  since : Nat := 0
  old : Option Epoch := none
  prevId : Nat := 0
  past : List Epoch := []
  firstDue : Bool := false
  staged : Option Epoch := none
  slots : List (Option Epoch) := [none, none, none, none, none, none, none, none]
  switch : Option (Nat × Nat) := none
deriving DecidableEq, Repr

/-- One DIO input's debouncer (R158, R164, R165): debounced class, raw class, cycles it has held, last normal level, and
the counter. Classes: 0 low or open, 1 high or closed, 2 break, 3 short. -/
structure Deb where
  cls : Nat := 0
  raw : Nat := 0
  run : Nat := 0
  lvl : Bool := false
  prev : Bool := false
  count : Nat := 0
deriving DecidableEq, Repr

/-- One cell's ranging (R100 to R106): primary tag, seam windows left, whether the window was cut short, qualifying
windows, cross-check counts, the latched INVALID, the tag it may not go below, the last tick with SETTLING, what was due
at the last edge (1 down, 2 seam end, 3 seam failed), and the span conditions of the previous window (R110). `half` and
`halfS` are the filter state: the previous window's conversions of the selected and of the other quantiser, weighted as
the rising half of the triangle (R96). -/
structure CellSt where
  half : Int := 0
  halfS : Int := 0
  tag : Nat := 0
  seam : Nat := 0
  cut : Bool := false
  dwell : Nat := 0
  fails : Nat := 0
  passes : Nat := 0
  bad : Bool := false
  block : Option Nat := none
  settle : Nat := 0
  due : Nat := 0
  lossNow : Bool := false
  spanOver : Bool := false
  spanInv : Bool := false
deriving DecidableEq, Repr

/-- A loop-supply switch (R133): consecutive ticks in current limit, and the tick it opened at. -/
structure Lsw where
  run : Nat := 0
  openAt : Option Nat := none
deriving DecidableEq, Repr

/-- The generator of a frequency repeat output (R177) at the last edge: its period in SAMPLE cycles (0: the pin is low), the
cycles of it gone by, and the period that governs from the next rising transition. -/
structure Gen where
  p : Nat := 0
  ph : Nat := 0
  next : Nat := 0
deriving DecidableEq, Repr

/-- The field side (03 to 06): link state under R13, routes in force, cells shed (R81) and pins under SURVEY (R90), stuck pin
pairs, cells and DIO inputs, protections with the tick each began, outputs applied at the last edge and (`was`) at the
one before with the channels that drove high in its last 500 µs, repeat generators, the window's observations that
software reads, and the notch centre staged and in force (R113). -/
structure Field where
  powered : Bool := false
  /-- The converter held its output through the last window read (R185). -/
  regulated : Bool := true
  dead : Bool := false
  strobes : Nat := 0
  stagedFull : Bool := false
  chanHold : Tbl Nat := []
  route : Route := {}
  shed : BitVec 64 := 0
  survPins : BitVec 64 := 0
  /-- Pins of a SURVEY that begins or ends, held to the next Lull (R17, R90). -/
  survNext : Option (BitVec 64) := none
  stuck : List Stuck := []
  cells : Tbl CellSt := []
  deb : Tbl Deb := []
  lsw : Tbl Lsw := []
  dioOff : Tbl Nat := []
  lampOff : Tbl Nat := []
  applied : Staged := {}
  staged : Staged := {}
  was : Staged := {}
  drove : BitVec 32 := 0
  gens : Tbl Gen := []
  /-- Counters that a change of COUNT_EDGE clears at the next edge (R182). -/
  ctrReset : List Nat := []
  lampCode : Tbl Nat := []
  /-- String forward voltages as last measured, in mV (R429). -/
  lampVf : Tbl Nat := []
  /-- Lamp tests running: the tick of the last, the lamps each still drives, and its command (R430). -/
  lampTests : List (Nat × Nat × Job) := []
  /-- Lamp tests that start at the next edge (R17). -/
  lampNew : List Job := []
  /-- Pins whose switch to a loop output the loss of the barrier link left closed (R13). -/
  loopPins : List Nat := []
  last : Window := {}
  prevDout : Nat := 0
  prevDin : Nat := 0
  prevCount : List Nat := []
  bands : List Nat := [0, 0, 0, 0, 0]
  lpMv : List Nat := [0, 0, 0, 0, 0]
  mains : Nat := 0
  notch : Nat := 0
  notchNext : Nat := 0
  demag : Tbl (Nat × Nat × Nat) := []
  lostTicks : List Nat := []
  lostRun : Nat := 0
  lastLost : Option Nat := none
  /-- SURVEY or LEAD_MEASURE in progress: pins or cell, start tick, arguments, where it completes (R88, R89). -/
  survey : Option Job := none
  lead : Option Job := none
  /-- LEAD_MEASURE so far: scaled voltages of its samples, and whether its IEXC reached compliance (R88). -/
  leadV : List Int := []
  leadOpen : Bool := false
  /-- A survey that a change of mode has ended; its finished records are still to be written (R92). -/
  surveyEnd : Option Job := none
  /-- Routes were opened other than at an epoch switch: their readback comes with the next complete block (R79 to R81). -/
  broke : Bool := false
  /-- BOOT has ended and the make steps of the first Lull are still to come (R81). -/
  makeDue : Bool := false
  /-- The channel settings that the field side samples by, applied at an edge (R180). -/
  dioSet : List DioChan := []
deriving DecidableEq, Repr

/-- A checkpoint (R61): the committed state at the end of its tick, with whether it reads back (R261), the UTC offset, the
epoch in force, the epoch of the last tick decided, the counts of R172, and of the domain part the credit books and the epoch
history. -/
structure Ckpt where
  tick : Nat
  ok : Bool := true
  d : Dec
  offset : Int := 0
  epochId : Nat := 0
  lastId : Nat := 0
  credits : Tbl (Nat × Nat) := []
  hist : List (Nat × Nat) := []
  dioOff : Tbl Nat := []
deriving DecidableEq, Repr

/-- The recorder (R59 to R62): the block of the tick in progress, the newest-first blocks with those marked lost, the
checkpoints, the decimated record, link losses, status events waiting for the next block, and whether a checkpoint copy is due. -/
structure Rec where
  block : Option Block := none
  blocks : List Block := []
  lost : List Nat := []
  ckpts : List Ckpt := []
  copyDue : Bool := false
  decim : List Block := []
  /-- Ticks at which barrier-link loss switched loop outputs off and so restarted their counts, newest first, for a replay (R147). -/
  linkLost : List (Nat × List Nat) := []
  waiting : List StatusEv := []
deriving DecidableEq, Repr

/-- Audit in progress (R270 to R272): the engine (true B), K, whether it is the repeat and at which tick the first failed,
and the command to complete. -/
structure Audit where
  b : Bool
  k : Nat
  repeated : Bool := false
  firstAt : Option Nat := none
  job : Option Job := none
deriving DecidableEq, Repr

/-- What of fault tick F had been decided before the fault, for the Gust that carries it (R265): the domain-group results
when all were complete, and the words of the sessions that were. -/
structure Kept where
  tick : Nat := 0
  dgrp : Option (Tbl Nat) := none
  sess : List (Nat × Nat) := []
deriving DecidableEq, Repr

/-- The Rowan engines (R257, R258): states by Table: Rowan engine states, duty, the fault tick with what had left the
module, the census of a delayed tick out of balance (R262), the audit and its repeat, the first tick at which each
engine's RESYNC may load a checkpoint (R268), and what awaits. `named` the engines block-reset by a command since their
audit verdict (R483). -/
structure Eng where
  a : Nat := 1
  b : Nat := 0
  dutyB : Bool := false
  takeovers : Nat := 0
  fault : Option Nat := none
  faultCommitted : Bool := false
  published : Option Nat := none
  kept : Kept := {}
  censusBad : Bool := false
  audit : Option Audit := none
  repeatDue : Option Audit := none
  resync : Tbl Nat := []
  named : List Bool := []
deriving DecidableEq, Repr

/-- A command frame in flight to a worker (R306, R309): CSEQ, its descriptor and origin, the tick first or last sent,
repeats, and the tick its credit returned. -/
structure Flight where
  cseq : Nat
  cmd : Cmd
  origin : Origin
  sent : Nat
  repeats : Nat := 0
  covered : Option Nat := none
deriving DecidableEq, Repr

/-- What a serving module keeps of one device (R308, R314 to R317): MAC and role admitted, admission tick, consecutive
missing digests, S, the last CREDIT_RET, frames in flight, the latest status block with its tick, and the tick, cause and
address of the last refusal. -/
structure Peer where
  mac : Nat := 0
  role : Nat := 3
  admitAt : Option Nat := none
  missing : Nat := 0
  s : Nat := 0
  ret : Nat := 0
  flights : List Flight := []
  status : List Byte := []
  statusAt : Nat := 0
  staged : Nat := 0
  refused : Option Nat := none
  refusedFor : Nat := 0
  refusedMac : Nat := 0
  /-- The completion of CFG_COMMIT counts it (R391). -/
  switched : Bool := false
deriving DecidableEq, Repr

/-- The manager role as a standby has rolled it forward to the end of the tick before `tick` (R277): what the work of `tick`
starts from, the events it decided for ticks that no digest shows, the published states of the last digests, and the
events of held digests, with DUP, for the event rings, and SEQ of the module's own events that carry DUP there (R280). -/
structure Taken where
  tick : Nat := 0
  ckpt : Nat := 0
  members : Tbl Nat := []
  dgroups : Tbl GroupState := []
  sessions : Tbl SessState := []
  evs : List Ev := []
  arm : Tbl Nat := []
  host : List (Nat × DigestEntry × Bool) := []
  written : List Nat := []
deriving DecidableEq, Repr

/-- Domain membership and the manager role (02, 09, 10): duties, Gust reception and sending, digests, join, credits,
holdover, island, the pending epoch, the standby's role checkpoint and journal. -/
structure Dom where
  id : Nat := 0
  idNext : Nat := 0
  dev : Nat := 0
  levelSet : Nat := 0
  level : Nat := 0
  serving : Bool := false
  standby : Bool := false
  fromStandby : Bool := false
  island : Bool := false
  islandCause : Nat := 0
  /-- In SYNC: the tick of a complete Gust has been adopted since it was entered (R29, R305). -/
  adopted : Bool := false
  admitted : Bool := false
  admitTick : Option Nat := none
  /-- The tick the module was admitted in, from which a worker counts its corrections of the RTC (R444). -/
  admittedAt : Option Nat := none
  /-- EPOCH_ID of the join response: the epoch in force at that tick. -/
  admitEpoch : Nat := 0
  refused : Bool := false
  joinSent : Option Nat := none
  /-- A serving module: join requests decoded in the tick in progress (R314). -/
  joins : List JoinReq := []
  /-- Addresses by device, as accepted frames show them. -/
  addrs : Tbl Nat := []
  listen : Option Nat := none
  s0 : Option Nat := none
  admShadow : Option Nat := none
  /-- Segments of the tick in progress, by port and segment, with the time block; segment arrival is closed at 760 µs. -/
  segs : List ((Nat × Nat) × List Byte) := []
  segTick : Option Nat := none
  gustNow : Option Gust := none
  gustClosed : Bool := false
  /-- Device whose Gust arrived in this tick, and whose was last applied. -/
  srcNow : Nat := 0
  srcLast : Option Nat := none
  absent : Nat := 0
  complete : Nat := 0
  theta : Int := 0
  /-- θ by the copy of segment 0 that each port brought. -/
  offsets : Tbl Int := []
  thetaGood : Nat := 0
  thetaBad : Nat := 0
  thetaFar : Nat := 0
  aligned : Nat := 0
  /-- The Gust completed at the last cut-off, and the one sent at this tick's edge. -/
  gustNext : Option Gust := none
  gustOut : Option Gust := none
  own : Option Digest := none
  digests : List Digest := []
  digestsPrev : List Digest := []
  missed : List Nat := []
  closed : Bool := false
  peers : Tbl Peer := []
  pend : Option Pend := none
  /-- The commit that has switched and completes in PUBLISH of A + 1 (R391). -/
  done : Option Pend := none
  hist : List (Nat × Nat) := []
  tookOver : Option Nat := none
  role : Option RoleCkpt := none
  /-- A tick whose role checkpoint is to go out once it is decided, with the entry marks before its digests (R262, R275). -/
  roleDue : Option (Nat × Tbl Marks) := none
  journal : List Journal := []
  snooped : List (Nat × Digest) := []
  gustMiss : Nat := 0
  /-- A standby: the complete Gusts of the last 64 ticks, newest first (R275); the manager is declared lost (R276); and the
  role rolled forward. -/
  heard : List Gust := []
  taking : Bool := false
  taken : Option Taken := none
  /-- A serving module: the device that reports standby duty without being admitted (R283). -/
  standbyDev : Option Nat := none
  /-- The entry marks before the digests of the tick in progress were taken in (R275). -/
  marksBefore : Tbl Marks := []
  /-- Silences that R243 dropped, with their device, for the next block; and remote states to turn STALE in it (R57). -/
  dropped : List (Nat × Action) := []
  staleDue : Bool := false
  cmds : List JournalCmd := []
  /-- Journal entries of the last 65 536 ticks with the tick of each (R282). -/
  known : List (Nat × JournalCmd) := []
  /-- The inputs that the Gust sent at this tick's edge carries, until the next cut-off; and those that act now. -/
  placed : List Sched := []
  inputs : List GustInput := []
  /-- A worker's side of R307: next CSEQ expected, CREDIT_RET, the queue, and the completions kept for repeats. -/
  cseqNext : Nat := 1
  creditRet : Nat := 0
  doneFrames : List (Nat × Compl) := []
  lastStatus : List Byte := []
  statusSent : Option Nat := none
  /-- What of the status block last sent makes a change of it (R296). -/
  statusKey : List Byte := []
deriving DecidableEq, Repr

/-- One port (R290, R299, R310, R311, R494): link, resolution, ring membership, partner, mean link delay over the last 8
results, discards, cable test record and whether a test runs, the ticks at which link came, went, and was last tested, and
the token bucket of class 3 in halves of a byte with the µs it was last filled at, and the ns at which the last frame of
classes 1 to 3 has left. -/
structure Port where
  link : Bool := false
  gig : Bool := false
  master : Bool := false
  swap : Bool := false
  pol : Bool := false
  ring : Bool := false
  interlink : Bool := false
  hsr : Bool := false
  pmac : Nat := 0
  delays : List Nat := []
  discLong : Nat := 0
  discSpz : Nat := 0
  ct : List Byte := []
  busy : Bool := false
  upAt : Option Nat := none
  downAt : Option Nat := none
  testAt : Option Nat := none
  /-- When the port last measured its link delay (R302). -/
  pdelayAt : Option Nat := none
  tok : Nat := 32768
  tokAt : Nat := 0
  busyTo : Nat := 0
deriving DecidableEq, Repr

/-- NET (10): both ports, the node table, duplicate discard by source, sequence and direction with the tick seen, the next HSR
sequence number, the frames sent in this tick with theirs, the node proxied on an interlink with its sequence number, the
selected PTP master with its data set and Sync age, and the currentUtcOffset announced. -/
structure Net where
  ports : List Port := [{}, {}]
  nodes : List (Nat × Nat) := []
  seen : List ((Nat × Nat × Nat) × Nat) := []
  seq : Nat := 0
  out : List (Nat × Frame) := []
  /-- Frames of classes 1 to 3 waiting for the next unprotected window (R300). -/
  held : List Held := []
  proxy : Option Nat := none
  proxySeq : Nat := 0
  bestMaster : Option (Nat × Nat) := none
  syncCount : Nat := 0
  utcOffset : Int := 0
  correction : Int := 0
  /-- When the selected master's last Sync came, and when this module last sent Sync, Announce and supervision (R293, R302, R303). -/
  lastSync : Option Nat := none
  syncAt : Option Nat := none
  announceAt : Option Nat := none
  supAt : Option Nat := none
deriving DecidableEq, Repr

/-- A ring (R325 to R334): registers, indices, the signalling count, what waits on it (completions, or events as words
with their flags), and of a LOG ring the records dropped since the last one written (R353). -/
structure Ring where
  base : Pair := {}
  shadow : Pair := {}
  mod : Word := 0
  enable : Bool := false
  active : Bool := false
  cfgErr : Bool := false
  link : Nat := 0
  vector : Nat := 0
  log2 : Nat := 0
  type : Nat := 0
  pidx : Nat := 0
  cidx : Nat := 0
  unsig : Nat := 0
  firstAt : Option Nat := none
  waitC : List Compl := []
  waitE : List (List Nat) := []
  dropped : Nat := 0
  /-- Its index has moved in this tick and its shadow is still to be written (R331). -/
  wbDue : Bool := false
deriving DecidableEq, Repr

/-- What of the endpoint's configuration space the host sets (R320; the PCI Express base specification): base addresses, D3hot, the
payload and read request sizes by their codes, MSI-X Enable and Function Mask. Log 99: PRESUMED. -/
structure PciCfg where
  bar0 : Nat := 0
  bar2 : Nat := 0
  d3 : Bool := false
  mps : Nat := 0
  mrrs : Nat := 2
  msixOn : Bool := false
  msixMask : Bool := false
deriving DecidableEq, Repr

/-- An EVT_REREAD whose last entries still wait for room (R348): ring, entries of the ring to write up to its last, how many of them at
most are its own, command, status and results. -/
structure Reread where
  ring : Nat
  left : Nat
  own : Nat := 0
  job : Job
  status : Nat
  count : Nat
  lost : Nat
deriving DecidableEq, Repr

/-- HIF and the host's side of it: 64 rings, the MSI-X table by word with its mask bits and pending bits (R320, R334),
messages sent in this tick, the commands decoded and not completed, and the host memory bytes the module has written.
Log 11: DESIGN CHOICE. Log 14: PRESUMED. -/
structure Hif where
  released : Bool := false
  /-- Completion rings that a ring state error disabled: their completions wait (R354). -/
  heldBack : List Nat := []
  rings : Tbl Ring := []
  vecs : Tbl Nat := []
  mask : BitVec 64 := 0xFFFFFFFFFFFFFFFF
  pba : BitVec 64 := 0
  msix : List Nat := []
  jobs : List Job := []
  rereads : List Reread := []
  /-- The completions that arose in the tick in progress, each with its CPL ring: they are written in the order of R341. -/
  arisen : List (Nat × Compl) := []
  pci : PciCfg := {}
  mem : Tbl Byte := []
  /-- What the last host read of a register returned (R324: zero for a violation). -/
  rd : Word := 0
deriving DecidableEq, Repr

/-- An outstanding bulk request of a channel (R366, R367): its XID and device, the frames sent, the bytes of it received,
when it was last sent and how often again. -/
structure BulkReq where
  xid : Nat
  dev : Nat
  frames : List Bulk
  len : Nat
  got : Nat := 0
  sent : Nat
  repeats : Nat := 0
deriving DecidableEq, Repr

/-- A DMA channel (R358): its registers, with SRC and DST as pairs whose applied values advance, the staging buffer whose
length is FILL, the command that started it and the one that waits for its pause, and its bulk request with the XID
counter; for a destination on another module, what its source has still to give (`feed`) and the ERR it ends with once
all of it is written out (`failing`, R364). -/
structure Chan where
  src : Pair := {}
  dst : Pair := {}
  len : Nat := 0
  done : Nat := 0
  buf : List Byte := []
  err : Nat := 0
  byCmd : Bool := false
  state : Nat := 0
  pause : Bool := false
  irq : Bool := false
  vector : Nat := 0
  prio : Nat := 0
  job : Option Job := none
  pauser : Option Job := none
  bulk : Option BulkReq := none
  xid : Nat := 0
  feed : List Byte := []
  failing : Nat := 0
deriving DecidableEq, Repr

/-- A SEQ reservation record (R372). -/
structure SeqRes where
  res : Nat
  tick : Nat
deriving DecidableEq, Repr

/-- A programmed power-fail area (R373): its header as bytes, and its three parts. -/
structure PfArea where
  header : List Byte := []
  ckpt : Option Ckpt := none
  page : List Ev := []
  blocks : List Block := []
deriving DecidableEq, Repr

/-- A line the console prints (R470): OK, ERR n, or a field of the option block by its name. -/
inductive ConLine where
  | okay
  | err (n : Nat)
  | value (name : String) (v : Nat)
deriving DecidableEq, Repr

/-- A command of another module that has completed there, with the bytes of its result read so far (R365). -/
structure Fetch where
  dev : Nat
  flight : Flight
  compl : Compl
  data : List Byte := []
deriving DecidableEq, Repr

/-- DMA and stored data (12): channels, DRAM windows, event store and page buffer, SEQ reservation, power-fail areas,
option blocks, images, ECC counters, bulk answers already given. -/
structure Mem where
  chans : Tbl Chan := []
  dram : Tbl Byte := []
  store : List Ev := []
  page : List Ev := []
  pageAt : Option Nat := none
  res : Option SeqRes := none
  resLog : List SeqRes := []
  lastSeq : Nat := 0
  areas : List (Option PfArea) := [none, none]
  /-- The two copies of the option block and the override block, as bytes; a copy that cannot be read holds none. -/
  opts : List (List Byte) := [encOpt optMagic {}, encOpt optMagic {}]
  optUse : OptBlock := {}
  override : List Byte := []
  optPend : OptBlock := {}
  images : List BImage := [{}, {}, { part := 1 }, { part := 1 }]
  running : Nat := 0
  /-- The microcode image that the field side loaded at BOOT (R473, R475). -/
  uc : BImage := {}
  imgStat : Word := 0x00111000
  eccUnc : Bool := false
  eccCor : Bool := false
  lastStore : Nat := 0
  corrCnt : Nat := 0
  eccAddr : Word := 0
  uncorrCnt : Nat := 0
  dramPasses : BitVec 16 := 0
  flashPasses : BitVec 16 := 0
  retired : BitVec 16 := 0
  reserve : BitVec 16 := 0
  /-- Flash blocks copied to a fresh one after a correction of 2 bytes or more (R377). -/
  moves : Nat := 0
  /-- Blocks that were read with bytes corrected and not yet repaired (R377): store, address, bytes corrected. -/
  worn : List (Store × Nat × Nat) := []
  /-- Tick of the last scrubber pass of the SRAM, the DRAM and the flash (R377). -/
  scrubAt : Tbl Nat := []
  /-- By requester and channel, the last request served with its answer (R366): XID, OFS, frames. -/
  served : List ((Nat × Nat) × (Nat × Nat × List Bulk)) := []
  /-- CFG_STAGE and IMG_STAGE commands whose images channel 13 carries to other modules, oldest first (R365). -/
  loads : List (Cmd × Origin) := []
  /-- By CSEQ, what this worker's latest commands have for the host's buffer or EVT ring, as the manager's channel 12 reads it (R365). -/
  results : List (Nat × List Byte) := []
  /-- Completed commands of other modules whose results channel 12 still reads, oldest first (R365). -/
  fetches : List Fetch := []
  /-- The channel that the last turn served (R361). -/
  turn : Nat := 15
  /-- The image that channel 13 of a manager has brought here. -/
  load : List Byte := []
  console : List ConLine := []
deriving DecidableEq, Repr

/-- An operation of a panel (R405): kind 0 update, 1 clear, 2 hold refresh; UPDATE_ID; region; first frame to drive;
whether an update of all follows a clear; the command to complete. -/
structure PanelOp where
  kind : Nat := 0
  id : Nat := 0
  x0 : Nat := 0
  y0 : Nat := 0
  w : Nat := 0
  h : Nat := 0
  first : Nat := 0
  redraw : Bool := false
  job : Option Job := none
deriving DecidableEq, Repr

/-- The fields of a panel's journal record (R416). -/
structure PanelJournal where
  state : Nat := 0
  kind : Nat := 0
  id : Nat := 0
  tableId : Nat := 0
  band : Nat := 0
  frames : Nat := 0
  reached : Nat := 0
  x0 : Nat := 0
  y0 : Nat := 0
  w : Nat := 0
  h : Nat := 0
  rtc : Nat := 0
  crcNew : Nat := 0
  epochSeq : Nat := 0
deriving DecidableEq, Repr

/-- An image of record (R416): packed pixels for a host image, or the rows of a page with their inverse bits. -/
structure PanelImage where
  id : Nat := 0
  crc : Nat := 0
  pixels : List Byte := []
  rows : List (List Nat × Bool) := []
  ok : Bool := true
deriving DecidableEq, Repr

/-- One panel (14): state by PNL_STAT, planes packed as R408, the operation in progress with its band and next frame, the edge of
the last frame and whether the operation stops after it (R413), what is pending, rails, displayed and expected CRC, journal, images of record newest first. -/
structure Panel where
  st : Nat := 9
  old : List Byte := []
  new : List Byte := []
  op : Option PanelOp := none
  band : Nat := 0
  frame : Nat := 0
  frames : Nat := 0
  frameAt : Option Nat := none
  stopping : Bool := false
  pendClear : Option PanelOp := none
  pendHost : Option (PanelOp × List Byte) := none
  pendPage : Option (List (List Nat × Bool)) := none
  pendHold : Bool := false
  interrupted : Option PanelOp := none
  rails : Bool := false
  railsUp : Bool := false
  railAt : Option Nat := none
  railFail : Option Nat := none
  /-- The tick of the last switch-off request (R412). -/
  railDown : Option Nat := none
  endTick : Nat := 0
  crc : Nat := 0
  expect : Word := 0
  isMatch : Bool := false
  warned : Option (Nat × Nat) := none
  /-- The 64 bytes of the journal record (R416); none in an empty journal (R435). -/
  journal : List Byte := []
  images : List PanelImage := []
  recovered : Bool := false
  page : List (List Nat × Bool) := []
deriving DecidableEq, Repr

/-- The backup domain (R434) but for RST_CAUSE and the journal, which stand in Sys and Panel. -/
structure Rtc where
  /-- The domain has had supply since it last started. -/
  up : Bool := true
  cnt : Nat := 0
  halt : Bool := false
  cntPair : Pair := {}
  shadow : Option Nat := none
  /-- Oscillator periods since the shadow was taken (R440). -/
  shadowAge : Nat := 0
  cmp : Pair := {}
  cmpEn : Bool := false
  fired : Bool := false
  skipped : Bool := false
  /-- The counter was written to a value at or beyond the compare and has not resumed; the compare's next firing is a skipped one (R448). -/
  written : Bool := false
  skipDue : Bool := false
  autoTrim : Bool := false
  measSrc : Nat := 0
  shore : Bool := false
  vbatLost : Bool := true
  vbatLow : Bool := false
  wake : Bool := false
  oscStop : Bool := true
  /-- The 32.768 kHz oscillator runs (CLK_STAT bit 7). -/
  running : Bool := true
  wakeEn : Bool := false
  period : Nat := 0
  wakeCnt : Nat := 0
  trim : Int := 0
  acc : Int := 0
  gate : Bool := false
  /-- The counter at the start of the gate (R446). -/
  gateAt : Nat := 0
  measValid : Bool := false
  measSrcOf : Nat := 0
  measErr : Int := 0
  latch : Bool := false
  hold : Bool := true
  onWake : Bool := false
  onCmp : Bool := false
deriving DecidableEq, Repr

/-- SEC (R497, R498): draws of the challenge so far, tries, and the response registers. Log 15: DESIGN CHOICE. -/
structure Sec where
  draws : Nat := 0
  unlocked : Bool := false
  fail : Bool := false
  tries : Nat := 0
  resp : List Word := List.replicate 16 0
deriving DecidableEq, Repr

/-- The whole module. `dec` is the committed state of R61 and `work` the tick being decided; `causes` the degradation
causes that hold; `railCfg` is PNL_RAIL_CFG; `pending` the commands waiting, first in, first out. Log 16: DESIGN CHOICE. -/
structure State where
  sys : Sys := {}
  time : Time := {}
  causes : List Cause := []
  cfg : Cfg := {}
  field : Field := {}
  rec_ : Rec := {}
  dec : Dec := {}
  work : Option Work := none
  eng : Eng := {}
  dom : Dom := {}
  net : Net := {}
  hif : Hif := {}
  mem : Mem := {}
  panels : List Panel := [{}, {}]
  railCfg : Word := 0x000303E8
  rtc : Rtc := {}
  sec : Sec := {}
  free : Nat := 0
  pending : List Instr := []
deriving DecidableEq, Repr

/-- The module right after its domains are released from a first reset (R462): BOOT, which SYS_MODE reads as its reset
value (R491), every register at the reset value its table gives, the backup domain as it starts from no supply (R435),
the strap open (R467: worker, normal) and blank flash. Log 3: DESIGN CHOICE. Log 4: DESIGN CHOICE. Log 5: DESIGN CHOICE. -/
def State.reset : State where
  sys := { mode := 4, prevMode := 3, role := 3, variant := 0, code := 15, ratio := 1000, v33 := true }
  dom := { id := 1, idNext := 1, levelSet := 1, dev := 2 }
  field := { powered := true, dead := true, applied := { louts := List.replicate 8 LoutCmd.off, dio := List.replicate 32 DioCmd.off, lamps := List.replicate 16 LampCmd.dark } }
  sec := { draws := 1 }

end Sys2Proof.Machine
end

