-- ==== Sys2Proof/Machine/Frames.lean ====
section
/-! DEFINITION. Frames as they leave the module (10_domain_network R294 to R297): TYPE and class, addresses, the Sprinzet
header, the payload, padding and FCS, and how long a frame is on the wire. -/

namespace Sys2Proof.Machine

/-- TYPE of a Sprinzet frame (Table: Sprinzet frame types); zero for a frame of another protocol. -/
def Frame.type : Frame → Nat
  | .gust _ _ => 1
  | .digest _ => 2
  | .command _ _ _ => 3
  | .completion _ _ => 4
  | .joinRequest _ => 5
  | .joinResponse _ _ => 6
  | .status _ _ => 7
  | .stream _ => 8
  | .bulk _ _ => 9
  | _ => 0

/-- Class of a frame that this module makes (R296, R299). -/
def Frame.cls : Frame → Nat
  | .gust _ _ | .digest _ | .ptpSync _ _ | .ptpAnnounce _ _ _ _ _ | .pdelayReq _ => 0
  | .command _ _ _ | .completion _ _ | .joinRequest _ | .joinResponse _ _ | .status _ _ | .supervision _ _ => 1
  | .stream _ | .bulk _ _ => 2
  | .forward _ _ _ => 3

/-- SEG of a Gust segment (R295). -/
def Frame.seg : Frame → Nat
  | .gust k _ => k
  | _ => 0

/-- The time block of segment 0 (R297): ORIGIN_NS within 5 µs after the edge, CORRECTION zero. Log 127: DESIGN CHOICE. -/
def timeBlock (tick : Nat) : List Byte := leBytes 8 (1000000 * tick + Config.gustNs tick % 5001) ++ leBytes 8 0

/-- Join request (R312). -/
def encJoinReq (r : JoinReq) : List Byte :=
  leBytes 6 r.mac ++ leBytes 1 r.role ++ leBytes 1 r.dev ++ leBytes 2 r.plMin ++ leBytes 2 r.plMax ++ leBytes 2 r.hwStep ++ leBytes 2 0
    ++ leBytes 4 r.fwVer ++ leBytes 4 r.ucVer ++ leBytes 8 r.epochHeld ++ leBytes 8 r.epochStaged ++ leBytes 4 r.caps ++ leBytes 4 0

/-- Join response (R315). -/
def encJoinResp (r : JoinResp) : List Byte :=
  leBytes 1 r.result ++ leBytes 1 r.dev ++ leBytes 2 r.level ++ leBytes 6 r.admitAt ++ leBytes 2 0 ++ leBytes 8 r.epochId ++ leBytes 4 0

/-- Bulk payload (R365). -/
def encBulk (b : Bulk) : List Byte :=
  leBytes 1 b.op ++ leBytes 1 b.chan ++ leBytes 2 b.xid ++ leBytes 2 b.status ++ leBytes 2 b.data.length ++ leBytes 8 b.addr
    ++ leBytes 4 b.ofs ++ leBytes 4 b.rlen ++ b.data

/-- A descriptor of 32 bytes as a command frame carries it (R336, R338). -/
def encCmd (c : Cmd) : List Byte := (c.words.map (leBytes 4)).flatten ++ leBytes 4 (c.crc.toNat + 65536 * c.rsv.toNat)

/-- The frames of the manager stream in their order: a tick's role checkpoint and its journal. -/
def Stream.key : Stream → Nat
  | .role c => 2 * c.tick
  | .journal j => 2 * j.tick + 1

/-- The manager stream, whose content R275 lists and whose layout the manual does not give. Log 127: DESIGN CHOICE. -/
def encStream (x : Stream) : List Byte := tab (Config.streamLen x.key % 1461) (Config.streamByte x.key)

/-- The payload of a Sprinzet frame (R296, R297, R338). -/
def Frame.payload : Frame → List Byte
  | .gust k g => (if k = 0 then timeBlock g.tick else []) ++ (gustSegments (encGust g)).getD k []
  | .digest d => encDigest d
  | .command _ q c => leBytes 1 q ++ leBytes 3 0 ++ encCmd c
  | .completion q c => leBytes 1 q ++ leBytes 3 0 ++ descBytes (complWords c) 0
  | .joinRequest r => encJoinReq r
  | .joinResponse _ r => encJoinResp r
  | .status _ b => b
  | .stream x => encStream x
  | .bulk _ b => encBulk b
  | _ => []

/-- Bytes of the payload. -/
def Frame.payloadLen : Frame → Nat
  | .gust k _ => if k = 0 then 1178 else 1162
  | .digest d => 84 + 16 * (d.entries.map fun e => e.item.cost).foldl (· + ·) 0
  | .command _ _ _ | .completion _ _ => 36
  | .joinRequest _ => 48
  | .joinResponse _ _ => 24
  | .status _ b => b.length
  | .stream x => (encStream x).length
  | .bulk _ b => 24 + b.data.length
  | _ => 28

/-- Bytes from destination address to FCS with the HSR tag (R294): a short frame is padded. -/
def Frame.len (f : Frame) : Nat := max 64 (40 + f.payloadLen)

/-- The port a frame is for; 2 for both ring ports. -/
def Frame.port : Frame → Nat
  | .ptpSync p _ | .ptpAnnounce p _ _ _ _ | .pdelayReq p | .supervision p _ | .forward p _ _ => p
  | _ => 2

/-- A frame of the manager stream (R275). -/
def Frame.isStream : Frame → Bool
  | .stream _ => true
  | _ => false

/-- A frame of this module as it waits for a window. -/
def Frame.held (f : Frame) : Held := { cls := f.cls, len := f.len, port := f.port, frame := f, stream := f.isStream }

/-- A group address 03-4B-5A-00-00-xx (R296). -/
def groupMac (x : Nat) : Nat := 0x034B5A000000 + x

/-- The address of a device: of an admitted or refused one from its join request, else as its frames show it. -/
def State.macOf (s : State) (d : Nat) : Nat :=
  let p := tget {} s.dom.peers d
  if p.mac ≠ 0 then p.mac else if p.refusedMac ≠ 0 then p.refusedMac else tget 0 s.dom.addrs d

/-- The device on standby duty, to which the manager stream goes (R275, R283). -/
def State.standbyOf (s : State) : Nat :=
  match s.dom.standbyDev, s.dom.peers.find? fun p => p.2.admitAt.isSome && (p.2.role = 2 || p.2.role = 1) with
  | some d, _ => d
  | none, some p => p.1
  | none, none => 1

/-- DST_DEV of a frame; 0xFF where it goes to a group (R295). A completion goes to the module that serves. -/
def dstDev (s : State) : Frame → Nat
  | .command d _ _ => d
  | .completion _ _ => s.dom.srcNow
  | .joinResponse _ r => r.dev
  | .stream _ => s.standbyOf
  | .bulk d _ => d
  | _ => 0xFF

/-- DA of a frame (Table: Sprinzet frame types). -/
def destMac (s : State) (f : Frame) : Nat :=
  match f with
  | .gust _ _ => groupMac 1
  | .digest _ | .status _ _ => groupMac 2
  | .joinRequest _ => groupMac 3
  | .joinResponse m _ => m
  | f => s.macOf (dstDev s f)

/-- SRC_DEV: 0xFE for a module not yet admitted (R295). -/
def srcDev (s : State) : Frame → Nat
  | .status d _ => d
  | _ => if s.dom.serving || s.dom.admitted then s.dom.dev else 0xFE

/-- Sprinzet header (R295). -/
def encHeader (s : State) (f : Frame) : List Byte :=
  let tick := match f with
    | .gust _ g => g.tick
    | .digest d => d.tick
    | _ => s.time.num
  leBytes 1 f.type ++ leBytes 1 (f.cls + 16 * f.seg) ++ leBytes 2 s.dom.id ++ leBytes 1 (srcDev s f) ++ leBytes 1 (dstDev s f)
    ++ leBytes 2 s.dom.level ++ leBytes 6 tick ++ leBytes 2 f.payload.length

/-- A Sprinzet frame with HSR sequence `seq` as it leaves `port` (R294): path 0 on E0 and 1 on E1, and an LSDU size that counts
the HSR tag from the path on, the payload and its padding. Log 126: PRESUMED. -/
def wireBytes (s : State) (port seq : Nat) (f : Frame) : List Byte :=
  let body := encHeader s f ++ f.payload
  let body := body ++ leBytes (f.len - 24 - body.length) 0
  let frame := beBytes 6 (destMac s f) ++ beBytes 6 Config.mac ++ beBytes 2 0x892F ++ beBytes 2 (port % 2 * 4096 + (body.length + 6) % 4096)
    ++ beBytes 2 seq ++ beBytes 2 0x88B5 ++ body
  frame ++ leBytes 4 (crc32 frame)

end Sys2Proof.Machine
end

