-- ==== Sys2Proof/Machine/Ops.lean ====
section
/-! DEFINITION. The named operations every family uses: modes and degradation causes (R477, R482, R483), module status
events (R223, R349), violations (R324), host memory, rings and completions (R328 to R343), and the tick's bookkeeping. -/

namespace Sys2Proof.Machine

/-- The outcome of a command that has its effect. -/
abbrev Out := Host.Outcome State Fault Refusal
abbrev ok (s : State) : Out := .next s

/-- `f` when `b` holds, else unchanged: a happening whose condition does not hold changes nothing. Log 6: DEDUCED. -/
def when_ (b : Bool) (f : State → State) (s : State) : State := if b then f s else s

/-! Modes. -/

/-- Standalone, manager and standby manager attach a host (R2, R489). -/
def State.hosted (s : State) : Bool := s.sys.role < 3
/-- The module serves the manager role (R19, R489): a serving module, and a manager or standalone module that does not send
a Gust yet and applies what it would send to itself alone (R394, R481); not one that holds standby duty (R283).
Log 52: DEDUCED. Log 62: DEDUCED. -/
def State.master (s : State) : Bool := s.dom.serving || (s.sys.role < 2 && !s.dom.standby)
/-- Modes that decide ticks (R477). -/
def decidesMode (m : Nat) : Bool := m = 9 || m = 10 || m = 11
def State.decides (s : State) : Bool := decidesMode s.sys.mode && !s.sys.hbLost
/-- Powered modes in which ticks run: RECOVERY to SAFE-HOLD (R492); none runs after the tick heartbeat was lost under set A
(R460). Log 155: DEDUCED. -/
def State.ticking (s : State) : Bool := 5 ≤ s.sys.mode && s.sys.mode ≤ 12 && !s.sys.hbLost
/-- The modes in which ticks run, the heartbeat lost or not: the switch forwards in the ticks' windows on the NET clock all the same
(R460). -/
def State.switching (s : State) : Bool := 5 ≤ s.sys.mode && s.sys.mode ≤ 12
/-- PHYs are powered from BOOT on (R487). -/
def State.phys (s : State) : Bool := 4 ≤ s.sys.mode && s.sys.mode ≤ 12
def State.tick (s : State) : Nat := s.time.num
def State.epochId (s : State) : Nat := if s.cfg.has then s.cfg.e.id else 0
/-- The epoch in force in the tick in progress, also after the switch in its Lull (R48). -/
def State.epochNow (s : State) : Nat := if s.cfg.has && s.cfg.since = (s.tick + 1) % 2 ^ 48 then s.cfg.prevId else s.epochId

/-- The image in force in the tick in progress, also after the switch in its Lull (R389). -/
def State.eNow (s : State) : Epoch :=
  if s.cfg.has && s.cfg.since = (s.tick + 1) % 2 ^ 48 then s.cfg.old.getD s.cfg.e else s.cfg.e

/-- A module status event with the mode before and after (R60, R344). It goes into the block of the tick in progress
until that tick's PUBLISH, and otherwise waits for the next one (R34); the modes below TEST keep no event sequence.
Log 26: DEDUCED. -/
def raiseModes (cause mb ma dw4 dw5 : Nat) (s : State) : State :=
  let v : StatusEv := { cause := cause, modeB := mb, modeA := ma, dw4 := dw4 % 2 ^ 32, dw5 := dw5 % 2 ^ 32 }
  if s.sys.mode < 6 && ma < 6 then s
  else
    match s.rec_.block with
    | some b =>
      if s.time.phase < 2 then { s with rec_ := { s.rec_ with block := some { b with ext := b.ext ++ [.status v] } } }
      else { s with rec_ := { s.rec_ with waiting := s.rec_.waiting ++ [v] } }
    | none => { s with rec_ := { s.rec_ with waiting := s.rec_.waiting ++ [v] } }

def raise (cause dw4 dw5 : Nat) (s : State) : State := raiseModes cause s.sys.mode s.sys.mode dw4 dw5 s

/-- Change of mode: MODE_CHANGE on entering TEST to SAFE-HOLD other than RECOVERY (R477), and NODE_OK by Table: Modes,
held open once the heartbeat is lost or the power-fail warning is given (R457, R460). -/
def setMode (m : Nat) (s : State) : State :=
  if m = s.sys.mode then s
  else
    let s := if 6 ≤ m && m ≤ 12 then raiseModes 0x80 s.sys.mode m 0 0 s else s
    { s with sys := { s.sys with mode := m, prevMode := s.sys.mode,
                                 nodeOk := (m = 9 || m = 10) && !s.sys.hbLost && s.sys.powerFail.isNone } }

/-- A degradation cause begins (R483). -/
def addCause (c : Cause) (s : State) : State :=
  let s := if c ∈ s.causes then s else { s with causes := s.causes ++ [c] }
  if s.sys.mode = 9 then setMode 10 s else s

/-- Every instance that `p` names ends; with the last cause gone RUN-DEGRADED becomes RUN (R482, R483). -/
def delCauses (p : Cause → Bool) (s : State) : State :=
  let s := { s with causes := s.causes.filter fun c => !p c }
  if s.sys.mode = 10 && s.causes = [] then setMode 9 s else s

def delCause (c : Cause) (s : State) : State := delCauses (· = c) s

/-- RUN or RUN-DEGRADED as the causes have it (R482). -/
def runMode (s : State) : Nat := if s.causes = [] then 9 else 10

/-! The tick being decided. -/

/-- A change of what is kept beside the decisions (queue, scheduled inputs, marks), in the committed state and in the
tick being decided alike. -/
def modDec (f : Dec → Dec) (s : State) : State :=
  { s with dec := f s.dec, work := s.work.map fun w => { w with d := f w.d } }

/-- The module serves the manager role in tick `n`: a standby from the tick of its first Gust on (R276). -/
def State.servingAt (s : State) (n : Nat) : Bool := s.dom.serving && s.dom.tookOver.all (· ≤ n)

/-- What decisions read beside the block (R15). -/
def State.ctx (s : State) : Ctx :=
  { e := s.cfg.e, since := s.cfg.since, old := s.cfg.old, dev := s.dom.dev, serving := s.servingAt s.tick }

/-- The work of tick `n` as it begins from the committed state `d`: loop counts afresh after a barrier-link loss (R147), and
the manager role as rolled forward in the tick in which a standby begins to serve (R277). -/
def State.startWork (s : State) (n : Nat) (d : Dec) : Work :=
  let d := (s.rec_.linkLost.filter fun x => x.1 = n).foldl (fun d x => d.restartThese x.2) d
  match s.dom.taken with
  | some t => if t.tick = n then
      { d := { d with members := t.members, dgroups := t.dgroups, sessions := t.sessions }, evs := t.evs, arm := some t.arm }
    else { d := d }
  | none => { d := d }

/-- The work of the tick in progress, begun or not. -/
def State.workNow (s : State) : Work := match s.work with
  | some w => w
  | none => s.startWork s.tick s.dec

/-- The tick in progress as the decision stands: what the tick's work has, or the committed state. -/
def State.view (s : State) : Dec := match s.work with
  | some w => w.d
  | none => s.dec

/-- The duty engine's state code (R257). -/
def Eng.duty (g : Eng) : Nat := if g.dutyB then g.b else g.a
def Eng.other (g : Eng) : Nat := if g.dutyB then g.a else g.b
def Eng.setDuty (g : Eng) (v : Nat) : Eng := if g.dutyB then { g with b := v } else { g with a := v }
def Eng.setOther (g : Eng) (v : Nat) : Eng := if g.dutyB then { g with a := v } else { g with b := v }
def Eng.of (g : Eng) (b : Bool) : Nat := if b then g.b else g.a
def Eng.set (g : Eng) (b : Bool) (v : Nat) : Eng := if b then { g with b := v } else { g with a := v }
/-- COLD, AUDIT and DISPUTED are eligible for takeover (R257). -/
def eligible (st : Nat) : Bool := st = 0 || st = 3 || st = 7
/-- Engine status word (R258). -/
def Eng.word (g : Eng) : Nat := g.a % 8 + 8 * (g.b % 8) + 64 * b2n g.dutyB + 256 * (g.takeovers % 256)

/-- The tick is decided now: the mode decides, a block is open, and the duty engine is DUTY (R261). -/
def State.deciding (s : State) : Bool := s.decides && s.rec_.block.isSome && s.eng.duty = 1 && s.sys.powerFail.all fun w => s.tick ≤ w

/-- The earliest apply tick still placeable: the Gust for N + 1 while its Lull has not begun, else the one after (R51).
Log 29: DEDUCED. -/
def State.earliest (s : State) : Nat := if s.time.phase < 3 then s.tick + 2 else s.tick + 3

/-! Frames (R293, R299, R300). -/

/-- Block `code` of Table: Block reset codes takes no request: its reset runs, or a power-fail warning left it there (R465). -/
def State.inReset (s : State) (code : Nat) : Bool := s.sys.blkCode = code && 1 ≤ s.sys.blkState && s.sys.blkState ≤ 3

def setPort (p : Nat) (x : Port) (s : State) : State := { s with net := { s.net with ports := s.net.ports.set p x } }
def State.port (s : State) (p : Nat) : Port := s.net.ports.getD p {}

def modPort (p : Nat) (f : Port → Port) (s : State) : State := setPort p (f (s.port p)) s

/-- An HSR-tagged frame on a port within 4 s of its link shows the partner on the ring; a later first one no longer does (R311, R494). -/
def hearPartner (p : Nat) (s : State) : State :=
  modPort p (fun x => if x.upAt.all fun t => s.tick < t + 4000 then { x with hsr := true, ring := x.gig } else x) s

/-- A frame of this module leaves with the next HSR sequence number of its address; one that the switch forwards keeps its own. -/
def Net.transmit (f : Frame) (y : Net) : Net :=
  match f with
  | .forward _ q _ => { y with out := y.out ++ [(q, f)] }
  | f => { y with out := y.out ++ [(y.seq, f)], seq := (y.seq + 1) % 65536 }
def transmit (f : Frame) (s : State) : State := { s with net := if s.inReset 0x11 then s.net else s.net.transmit f }

/-- A frame of this module: class 0 leaves at once, the other classes wait for an unprotected window. -/
def Net.send (f : Frame) (y : Net) : Net :=
  if f.cls = 0 then y.transmit f else { y with held := y.held ++ [f.held] }
/-- While NET is in reset its requests get an error response, and the frame does not leave (R465). -/
def send (f : Frame) (s : State) : State := { s with net := if s.inReset 0x11 then s.net else s.net.send f }

/-- The ns that a frame of `len` bytes with preamble and gap takes at a port's speed. -/
def Port.ns (p : Port) (len : Nat) : Nat := (len + 20) * if p.gig then 8 else 80

/-- The token bucket of class 3 at a µs: 100 Mb/s, 16 KiB (R299). A µs credited once is not credited again. -/
def Port.fill (p : Port) (us : Nat) : Port := { p with tok := min 32768 (p.tok + 25 * (us - p.tokAt)), tokAt := max us p.tokAt }

/-- The ns of the window from `a` to `b` µs of a tick that a port has left behind the frames it sends already (R300). -/
def Port.left (p : Port) (tick a b : Nat) : Nat := 1000000 * tick + 1000 * b - max (1000000 * tick + 1000 * a) p.busyTo

/-- The ports a waiting frame leaves by: those of the ring with link, or the one it is for. -/
def Held.ports (h : Held) (s : State) : List Nat :=
  if h.port < 2 then (if (s.port h.port).link then [h.port] else [])
  else (List.range 2).filter fun p => (s.port p).link && (s.port p).ring

/-- The egress of one unprotected window: the ns left on each port, the frames that go on waiting, and the classes whose
next frame did not fit. -/
structure Egress where
  left : List Nat
  kept : List Held := []
  stop : List (Nat × Nat) := []
deriving DecidableEq, Repr

/-- One waiting frame: it leaves when its last bit leaves before the window ends, in the order of its class (R292, R299,
R300); a frame whose ports have no link is lost. One that does not fit stops its own class, not a lower one. Log 128: DESIGN
CHOICE. -/
def releaseOne (z : State × Egress) (h : Held) : State × Egress :=
  let s := z.1
  let e := z.2
  let ps := h.ports s
  let fits := ps.all fun p => (h.cls, p) ∉ e.stop && (s.port p).ns h.len ≤ e.left.getD p 0 && (h.cls ≠ 3 || 2 * h.len ≤ (s.port p).tok)
  if !fits then (s, { e with kept := e.kept ++ [h], stop := e.stop ++ ps.map fun p => (h.cls, p) })
  else if ps = [] then (s, e)
  else
    let left := ps.foldl (fun l p => l.set p (l.getD p 0 - (s.port p).ns h.len)) e.left
    let s := if h.cls = 3 then ps.foldl (fun s p => setPort p { s.port p with tok := (s.port p).tok - 2 * h.len } s) s else s
    (transmit h.frame s, { e with left := left })

/-- BLACKOUT sends no frame of class 3, and of class 2 the manager stream alone (R485). -/
def Held.shed (h : Held) (mode : Nat) : Bool := mode = 11 && (h.cls = 3 || (h.cls = 2 && !h.stream))

/-- The unprotected window from `a` to `b` µs of the tick in progress: what waits leaves, class 1 first, behind the frames that the
port has forwarded in it already. Log 128: DESIGN CHOICE. -/
def releaseHeld (a b : Nat) (s : State) : State :=
  let s := (List.range 2).foldl (fun s p => setPort p ((s.port p).fill (1000 * s.tick + a)) s) s
  let l := (List.range 4).flatMap fun c => s.net.held.filter fun h => h.cls = c && !h.shed s.sys.mode
  let z := l.foldl releaseOne (s, { left := tab 2 fun p => (s.port p).left s.tick a b })
  (List.range 2).foldl (fun s p => setPort p { s.port p with busyTo := max (s.port p).busyTo (1000000 * s.tick + 1000 * b - z.2.left.getD p 0) } s)
    { z.1 with net := { z.1.net with held := z.2.kept } }

/-! Records of the backup domain (R21). -/

/-- The reset cause is kept as a record with its CRC. -/
def setCause (c : Nat) (y : Sys) : Sys := { y with rstCause := c, rstCrc := crc16 [BitVec.ofNat 8 c] }

/-- What RST_CAUSE reads: a record whose CRC fails counts as absent, as after a start of the domain. Log 133: DEDUCED. -/
def State.cause (s : State) : Nat := if s.sys.rstCrc = crc16 [BitVec.ofNat 8 s.sys.rstCause] then s.sys.rstCause else 1

/-! Violations (R324, R491). -/

/-- Case 1 width or alignment, 2 reserved address, 3 locked, 4 role, 5 doorbell, 6 window. -/
def violate (case_ : Nat) (write bar2 : Bool) (off : Nat) (s : State) : State :=
  { s with sys := { s.sys with
      violCnt := min (s.sys.violCnt + 1) 0xFFFFFFFF
      violLast := BitVec.ofNat 32 (2 ^ 31 + 2 ^ 30 * b2n write + 2 ^ 29 * b2n bar2 + 2 ^ 24 * case_ + off % 65536) } }

/-! Pairs (R8, R395). -/

def Pair.first (p : Pair) (v : Word) : Pair := { p with held := some v.toNat, lo := v }
def Pair.second (p : Pair) (v : Word) : Pair :=
  { applied := (p.held.getD (p.applied % 2 ^ 32)) + 2 ^ 32 * v.toNat, held := none, lo := p.lo, hi := v }
/-- A pair whose applied value the block itself moves on; a held first write stays. -/
def Pair.put (p : Pair) (n : Nat) : Pair :=
  { applied := n, held := p.held, lo := if p.held.isSome then p.lo else BitVec.ofNat 32 n, hi := BitVec.ofNat 32 (n / 2 ^ 32) }
def Pair.of (n : Nat) : Pair := ({} : Pair).put n

/-! Host memory and rings. -/

/-- Bytes written to host memory from an address. -/
def hostWrite (addr : Nat) (bs : List Byte) (s : State) : State :=
  { s with hif := { s.hif with mem := bs.zipIdx.foldl (fun m x => tset 0 m (addr + x.2) x.1) s.hif.mem } }

/-- The slot of ring `n`; the TYPE of rings 0 and 1 is fixed (R325). -/
def State.ring (s : State) (n : Nat) : Ring :=
  let r := tget {} s.hif.rings n
  if n = 0 then { r with type := 0 } else if n = 1 then { r with type := 1 } else r

def setRing (n : Nat) (r : Ring) (s : State) : State := { s with hif := { s.hif with rings := tset {} s.hif.rings n r } }
def Ring.size (r : Ring) : Nat := 2 ^ r.log2
def sub32 (a b : Nat) : Nat := (a + 2 ^ 32 - b % 2 ^ 32) % 2 ^ 32
/-- Rings are served by the module that serves the manager role (R321). -/
def Ring.live (r : Ring) : Bool := r.enable && r.active
def Ring.room (r : Ring) : Bool := sub32 r.pidx r.cidx < r.size

/-- The shadow word: the module's index and the tick (R331). -/
def writeBack (n : Nat) (s : State) : State :=
  let r := s.ring n
  hostWrite r.shadow.applied (leBytes 4 (if r.type = 0 then r.cidx else r.pidx) ++ leBytes 4 (s.tick % 2 ^ 32)) s

/-- An entry counted for signalling (R334). -/
def Ring.entry (r : Ring) (tick : Nat) : Ring :=
  { r with unsig := r.unsig + 1, firstAt := if r.unsig = 0 then some tick else r.firstAt }

/-- One descriptor written to a module→host ring with its PHASE and CRC (R332). A completion ring's index is written back with it, any
other's once, before the tick ends (R331). -/
def ringWrite (n : Nat) (ws : List Nat) (s : State) : State :=
  let r := s.ring n
  let phase := if r.pidx / r.size % 2 = 0 then 2 ^ 31 else 0
  let s := hostWrite (r.base.applied + 32 * (r.pidx % r.size)) (descBytes ws phase) s
  let s := setRing n ({ r with pidx := (r.pidx + 1) % 2 ^ 32, wbDue := r.type ≠ 1 }.entry s.tick) s
  if r.type = 1 then writeBack n s else s

/-- The shadows of rings whose index has moved, as the tick ends (R331); on a CMD ring that counts as an entry (R334). -/
def flushShadows (s : State) : State :=
  (List.range 64).foldl (fun s n =>
    let r := s.ring n
    if r.wbDue && r.live then
      let q := { r with wbDue := false }
      writeBack n (setRing n (if r.type = 0 then q.entry s.tick else q) s)
    else s) s

/-- A completion to CPL ring `n`: written, held back while others wait or there is no room (R343) or after a ring state
error (R354), or discarded when the ring is not enabled (R322) or 1 024 wait already. Log 148: DESIGN CHOICE. -/
def postCompl (n : Nat) (c : Compl) (s : State) : State :=
  let r := s.ring n
  if r.type = 1 && r.live && r.waitC = [] && r.room then ringWrite n (complWords c) s
  else if ((r.type = 1 && r.live) || n ∈ s.hif.heldBack) && r.waitC.length < 1024 then setRing n { r with waitC := r.waitC ++ [c] } s
  else s

/-- One message on an MSI-X vector (R334): none while MSI-X is not enabled, pending while the vector or the function is masked. -/
def sendMsix (v : Nat) (s : State) : State :=
  if !s.hif.pci.msixOn then s
  else if s.hif.pci.msixMask || s.hif.mask.getLsbD v then { s with hif := { s.hif with pba := s.hif.pba ||| BitVec.ofNat 64 (2 ^ v) } }
  else { s with hif := { s.hif with msix := s.hif.msix ++ [v] } }

/-- Event words to every enabled EVT ring whose KIND_MASK holds `kind`, in order behind what waits (R346). -/
def postEvent (kind : Nat) (ws : List Nat) (s : State) : State :=
  (List.range 64).foldl (fun s n =>
    let r := s.ring n
    if r.type = 2 && r.live && bit r.link (kind - 1) then
      if r.waitE = [] && r.room then ringWrite n ws s else setRing n { r with waitE := r.waitE ++ [ws] } s
    else s) s

/-- Words of a LOG record: source block, device, code, tick and data; after a drop the count takes the place of the first data
field (R353). -/
def logWords (dev src code tick dropped : Nat) (data : List Nat) : List Nat :=
  [src % 256 + 2 ^ 8 * (dev % 64) + 2 ^ 16 * (code % 65536), tick % 2 ^ 32,
   tick / 2 ^ 32 % 65536 + 2 ^ 16 * (if dropped = 0 then data.getD 0 0 % 65536 else dropped)] ++ tab 4 fun k => data.getD (k + 1) 0 % 2 ^ 32

/-- A diagnostic record to every LOG ring; a full ring drops it and counts it (R353). -/
def postLog (src code : Nat) (data : List Nat) (s : State) : State :=
  (List.range 64).foldl (fun s n =>
    let r := s.ring n
    if r.type ≠ 4 || !r.live then s
    else if r.room then ringWrite n (logWords s.dom.dev src code s.tick r.dropped data) (setRing n { r with dropped := 0 } s)
    else setRing n { r with dropped := min (r.dropped + 1) 65535 } s) s

/-- The records the control firmware writes in a tick (R353 leaves their content and number to it). Log 131: DESIGN CHOICE. -/
def firmwareLog (s : State) : State :=
  if (List.range 64).any fun n => (s.ring n).type = 4 && (s.ring n).live then
    (List.range (Config.logs s.tick)).foldl (fun s i =>
      postLog (Config.logField s.tick i 0) (Config.logField s.tick i 1) (tab 5 fun k => Config.logField s.tick i (k + 2)) s) s
  else s

/-! Completions (R341). -/

/-- One pair of ring and index before another. -/
def ringBefore (a b : Nat × Nat) : Bool := a.1 < b.1 || (a.1 = b.1 && a.2 < b.2)

/-- `x` placed in a list kept in the order of ring and index. -/
def placeByRing {α : Type} (x : (Nat × Nat) × α) : List ((Nat × Nat) × α) → List ((Nat × Nat) × α)
  | [] => [x]
  | y :: t => if ringBefore y.1 x.1 then y :: placeByRing x t else x :: y :: t

/-- What is in `l`, in the order of ring number and then ring index in which completions that arise together are written; those
of no ring come last (R341). -/
def byRing {α : Type} (l : List ((Nat × Nat) × α)) : List α := (l.foldr placeByRing []).map (·.2)

/-- Where a command came from, for that order. -/
def Origin.place : Origin → Nat × Nat
  | .ring r i => (r, i)
  | .frame q => (64, q)
  | .reg => (64, 256)

/-- A completion for CPL ring `n` arises (R341): those of one tick are written together; where no ticks run it is written at once.
Log 165: DEDUCED. -/
def arise (n : Nat) (c : Compl) (s : State) : State :=
  if s.ticking then { s with hif := { s.hif with arisen := s.hif.arisen ++ [(n, c)] } } else postCompl n c s

/-- The completions of a tick are written as it ends, by ring number and then ring index (R341). -/
def writeArisen (s : State) : State :=
  (byRing (s.hif.arisen.map fun x => ((x.2.ring, x.2.index), x))).foldl (fun s x => postCompl x.1 x.2 s) { s with hif := { s.hif with arisen := [] } }

/-- Complete a command: to the ring it came from, as a completion frame, or nowhere. The outcome is kept for the journal
of R275, with the APPLY_TICK named, and for repeats of R307. -/
def complete (o : Origin) (apply tag op dev status detail a b used : Nat) (s : State) : State :=
  let c : Compl := { tag := tag, op := op, dev := dev, status := status, detail := detail, used := used, a := a % 2 ^ 32, b := b % 2 ^ 32 }
  match o with
  | .ring r i =>
    let c := { c with ring := r, index := i }
    let s := arise (s.ring r).link c s
    { s with dom := { s.dom with cmds := s.dom.cmds ++ [{ ring := r, index := i, tag := tag, op := op, dev := dev, apply := apply, status := status, used := used, a := c.a, b := c.b, detail := detail }] } }
  | .frame q =>
    let s := { s with dom := { s.dom with doneFrames := ((q, c) :: s.dom.doneFrames).take 16 } }
    send (.completion q c) s
  | .reg => s

/-- Complete `c` of `o` now. -/
def finish (o : Origin) (c : Cmd) (status detail a b used : Nat) (s : State) : State :=
  complete o c.apply.toNat c.tag.toNat c.op.toNat c.dev.toNat status detail a b used s

/-- OK, or LATE when the named tick had passed (R337). -/
def okLate (late : Bool) : Nat := if late then 1 else 0

/-- Complete a running command, with its start tick. -/
def finishJob (j : Job) (status a b : Nat) (s : State) : State := finish j.origin j.cmd status 0 a b j.start s

/-- OK, or LATE, for a job that has done what it was asked. -/
def Job.done (j : Job) : Nat := okLate j.late

def finishOpt (j : Option Job) (status a b : Nat) (s : State) : State := match j with
  | some j => finishJob j status a b s
  | none => s

/-! Stored data (R368, R371, R372, R376, R378). -/

def withMem (f : Mem → Mem) (s : State) : State := { s with mem := f s.mem }

def State.chan (s : State) (c : Nat) : Chan := tget {} s.mem.chans c
def setChan (c : Nat) (x : Chan) (s : State) : State := withMem (fun m => { m with chans := tset {} m.chans c x }) s
/-- RUNNING, PREEMPTED, DRAINING or PAUSED (R358). -/
def Chan.busy (x : Chan) : Bool := 1 ≤ x.state && x.state ≤ 4

/-- A transfer of a firmware channel that begins and ends within one row: it stands DONE in its slot (R357). One that is at work keeps
its registers. Log 137: DESIGN CHOICE. -/
def fwDone (c src dst len : Nat) (s : State) : State :=
  let x := s.chan c
  withMem (fun m => { m with chans := if len = 0 || x.busy then m.chans else tset {} m.chans c { x with
    src := x.src.put (src + len), dst := x.dst.put (dst + len), len := 0, done := len, err := 0, byCmd := true, state := 5,
    prio := if c < 14 then 1 else 2 } }) s

/-- A manager stream frame to the standby, by channel 15 from the firmware's memory into the standby's region (R357, R368). -/
def sendStream (x : Stream) (s : State) : State :=
  fwDone 15 (2 ^ 60 + 0x3F900000) (3 * 2 ^ 60 + 2 ^ 54 + 0x3CD00000) (encStream x).length (send (.stream x) s)

/-- What R378 reports of an uncorrectable block. Log 87: DEDUCED. -/
def storeError (x : Store) (addr : Nat) (s : State) : State :=
  let s := match x with
    | .reserve => withMem (fun m => { m with reserve := if m.reserve.toNat < 16 then m.reserve else 15 }) s
    | _ => withMem (fun m => { m with
        eccUnc := true, lastStore := x.code, eccAddr := BitVec.ofNat 32 addr, uncorrCnt := min (m.uncorrCnt + 1) 0xFFFFFFFF }) s
  raise 0xA5 x.code addr s

/-- A flash block that fails to program is retired and replaced from the reserve, whose fall below 16 is reported (R368, R378). -/
def retireBlock (addr : Nat) (s : State) : State :=
  let was := s.mem.reserve.toNat
  let s := withMem (fun m => { m with retired := m.retired + 1, reserve := BitVec.ofNat 16 (was - 1) }) s
  if was = 16 then addCause (15, 0) (storeError .reserve addr s) else s

/-- `n` flash pages from `a` on are programmed, their blocks erased where that is due, and read back in detect-only mode (R368, R376); the
bytes go there by channel 13 (R357). A block that fails in either is retired, and its page is programmed again in the block that replaces
it; with the reserve empty there is none, and what was to be held is lost. Log 147: DESIGN CHOICE. -/
def program (a n : Nat) (s : State) : Bool × State :=
  let bad := Config.badPages s.free n
  let t := bad.foldl (fun s b => retireBlock b s) s
  (decide (bad.length ≤ s.mem.reserve.toNat),
    fwDone 13 (2 ^ 60 + 0x3F900000) (2 * 2 ^ 60 + a) (4096 * n) { s with
      sys := t.sys, rec_ := t.rec_, causes := t.causes, mem := t.mem, free := s.free + 1 })

/-- Pages of 4 KiB that `n` bytes take. -/
def pagesOf (n : Nat) : Nat := (n + 4095) / 4096

/-- The next page of a circular log at `a`, of `n` pages (R371, R372, R416): where the log stands is free. -/
def logPage (a n : Nat) (s : State) : Nat := a + 4096 * (Config.logPage s.free % n)

/-- The event store holds at least 1 040 384 events (R371): its 32 MiB less the block erased ahead. Log 88: DEDUCED. -/
def storeKeeps : Nat := 1040384

/-- Events join the event store, whose oldest make room. -/
def Mem.keepEvents (m : Mem) (evs : List Ev) : Mem :=
  let all := m.store ++ evs
  { m with store := all.drop (all.length - storeKeeps) }

/-- The page buffer is programmed into the event store (R371). -/
def flushPage (s : State) : State :=
  let r := program (logPage 0x07000000 8192 s) 1 s
  withMem (fun m => { (if r.1 then m.keepEvents m.page else m) with page := [], pageAt := none }) r.2

/-- An event joins the page buffer of 128 entries, which is programmed when it is full (R371). -/
def placeEvent (s : State) (v : Ev) : State :=
  let s := if 128 ≤ s.mem.page.length then flushPage s else s
  withMem (fun m => { m with page := m.page ++ [v], pageAt := if m.page = [] then some s.tick else m.pageAt, lastSeq := v.seq }) s

/-- A verified record joins the SEQ reservation log (R372), a circular one that holds the 49 152 records of 1 MiB less the block
erased ahead. -/
def Mem.reserveSeq (m : Mem) (r : SeqRes) : Mem :=
  let all := m.resLog ++ [r]
  { m with res := some r, resLog := all.drop (all.length - 49152) }

/-- The next reservation, raised by 65 536. -/
def reserveNext (s : State) : State := match s.mem.res with
  | some r => withMem (fun m => m.reserveSeq { res := (r.res + 65536) % 2 ^ 32, tick := s.tick }) s
  | none => s

/-- The newest verified reservation covers a SEQ (R372). -/
def Mem.covers (m : Mem) (q : Nat) : Bool := m.res.all fun r => sub32 r.res q < 2 ^ 31

/-- No SEQ goes beyond the newest reservation (R372): where the next event's would, the record that covers it is programmed first, and
counts once it is verified. -/
def reserveFor (q : Nat) (s : State) : State :=
  if s.mem.covers q then s
  else
    let r := program (logPage 0x00300000 256 s) 1 s
    if r.1 then reserveNext r.2 else r.2

/-! The queue of command frames (R307). -/

/-- CSEQ of the command frame a command came with. -/
def Job.cseq (j : Job) : Option Nat := match j.origin with
  | .frame q => some q
  | _ => none

/-- A command leaves the queue: CREDIT_RET is its CSEQ, but stays where a later command left before it (R307, R308).
Log 73: DEDUCED. -/
def leaveQueue (q : Nat) (s : State) : State :=
  { s with dom := { s.dom with creditRet := if (s.dom.creditRet + 256 - q) % 256 < 16 then s.dom.creditRet else q } }

/-- The command of a job leaves the queue, if it stood in it. -/
def leaveFrame (j : Job) (s : State) : State := match j.cseq with
  | some q => leaveQueue q s
  | none => s

/-! Device table of a serving module. -/

def State.peer (s : State) (d : Nat) : Peer := tget {} s.dom.peers d
def setPeer (d : Nat) (p : Peer) (s : State) : State := { s with dom := { s.dom with peers := tset {} s.dom.peers d p } }
/-- Admitted from its admission tick on (R316). -/
def State.isAdmitted (s : State) (d : Nat) : Bool := (s.peer d).admitAt.any (· ≤ s.tick)
def State.admittedDevs (s : State) : List Nat := (List.range 64).filter fun d => s.isAdmitted d
/-- Bits for a list of devices. -/
def devMask (l : List Nat) : Nat := ((List.range 64).filter (· ∈ l)).foldl (fun a d => a + 2 ^ d) 0

end Sys2Proof.Machine
end

