-- ==== Sys2Proof/Machine/Reach.lean ====
section
/-! DEFINITION. Which register window the host reaches in which mode, and what is locked (17_register_map R488 to R490). -/

namespace Sys2Proof.Machine

/-- The window of a BAR0 offset is reached in the mode in force (Table: Window reach by mode). -/
def windowOpen (mode off : Nat) : Bool :=
  if off < 0x0800 then 4 ≤ mode
  else if off < 0x1800 || (0x3000 ≤ off && off < 0x3400) || (0x3800 ≤ off && off < 0x3C00) then 5 ≤ mode
  else 6 ≤ mode

/-- The host has a register path: a host-attached role, with HIF released and the function not in D3hot (R320, R321, R462,
R489). Log 65: DEDUCED. -/
def State.path (s : State) : Bool := s.hosted && s.hif.released && 4 ≤ s.sys.mode && !s.hif.pci.d3

/-- A host write at BAR0 `off`: nothing without a path, a violation outside the modes that reach the window, else `f`. -/
def regWrite (off : Nat) (f : State → State) (s : State) : State :=
  if !s.path then s else if !windowOpen s.sys.mode off then violate 3 true false off s else f s

/-- As `regWrite` for a register marked serving only (R489). -/
def servingWrite (off : Nat) (f : State → State) (s : State) : State :=
  regWrite off (fun s => if s.master then f s else violate 4 true false off s) s

/-- What a host read returns. -/
def withRd (v : Nat) (s : State) : State := { s with hif := { s.hif with rd := BitVec.ofNat 32 v } }

/-- A violation by a host access; a read returns zero (R324). -/
def badAccess (case_ : Nat) (write bar2 : Bool) (off : Nat) (s : State) : State :=
  let s := violate case_ write bar2 off s
  if write then s else withRd 0 s

/-- A host read at BAR0 `off`. -/
def regRead (off : Nat) (f : State → State) (s : State) : State :=
  if !s.path then s else if !windowOpen s.sys.mode off then badAccess 3 false false off s else f s

end Sys2Proof.Machine
end

