-- ==== Sys2Proof/Machine/Rtc.lean ====
section
/-! DEFINITION. The backup domain and real-time clock (15_rtc_backup_domain). -/

namespace Sys2Proof.Machine

def withRtc (f : Rtc → Rtc) (s : State) : State := { s with rtc := f s.rtc }

/-- Level driven on PWR_ON (R451); pulled low in OFF (R487). -/
def State.pwrOn (s : State) : Bool := s.sys.mode ≠ 1 && (s.rtc.latch || s.rtc.hold)

/-! Calendar (R438). -/

def leap (y : Nat) : Bool := y % 4 = 0 && y ≠ 100

/-- Years since 2000 and day of year from 0, for day `d` since 2000-01-01. -/
def yearOf : Nat → Nat → Nat → Nat × Nat
  | 0, y, d => (y, d)
  | n + 1, y, d =>
    let l := if leap y then 366 else 365
    if d < l then (y, d) else yearOf n (y + 1) (d - l)

def monthLen (y m : Nat) : Nat := if m = 1 && leap y then 29 else [31, 28, 31, 30, 31, 30, 31, 31, 30, 31, 30, 31].getD m 31

/-- Month from 0 and day of month from 0. -/
def monthOf (y : Nat) : Nat → Nat → Nat → Nat × Nat
  | 0, m, d => (m, d)
  | n + 1, m, d => if d < monthLen y m then (m, d) else monthOf y n (m + 1) (d - monthLen y m)

/-- RTC_CAL_0 of a counter value (R436, R438); zero from 2200 on. -/
def cal0 (cnt : Nat) : Nat :=
  if 206813056204800 ≤ cnt then 0
  else
    let t := cnt / 32768
    cnt % 32768 + 2 ^ 15 * (t % 60) + 2 ^ 21 * (t / 60 % 60) + 2 ^ 27 * (t / 3600 % 24)

/-- RTC_CAL_1 of a counter value; 2000-01-01 was a Saturday. -/
def cal1 (cnt : Nat) : Nat :=
  if 206813056204800 ≤ cnt then 0
  else
    let d := cnt / 32768 / 86400
    let (y, yd) := yearOf 200 0 d
    let (m, md) := monthOf y 12 0 yd
    y + 256 * (m + 1) + 2 ^ 12 * (md + 1) + 2 ^ 17 * ((d + 5) % 7 + 1) + 2 ^ 20 * (yd + 1) + 2 ^ 31

/-! Compare, wake and PWR_ON (R448 to R451). -/

/-- The compare's condition: armed, not fired, the counter at or above it, which a write did not bring there that still waits for
counting to resume (R448, R449). -/
def Rtc.cmpDue (r : Rtc) : Bool := r.cmpEn && !r.fired && r.cmp.applied % 2 ^ 48 ≤ r.cnt && !r.written

def Rtc.fireCmp (r : Rtc) : Rtc :=
  if r.cmpDue then { r with fired := true, skipped := r.skipDue, skipDue := false, latch := r.latch || r.onCmp } else r

def Rtc.wakeDue (r : Rtc) : Bool := r.wakeEn && r.period ≠ 0 && r.wakeCnt = 0

def Rtc.fireWake (r : Rtc) : Rtc :=
  if r.wakeDue then { r with wake := true, latch := r.latch || r.onWake, wakeCnt := 128 * r.period } else r

/-- A gate starts, from the counter as it stands (R446). -/
def Rtc.openGate (r : Rtc) : Rtc := { r with gate := true, gateAt := r.cnt }

/-- N_c: advances of the trimmed counter since the gate started (R446). -/
def Rtc.gateCount (r : Rtc) : Nat := (r.cnt + 2 ^ 48 - r.gateAt % 2 ^ 48) % 2 ^ 48

/-- The read shadow is released (R440). -/
def Rtc.unshadow (r : Rtc) : Rtc := { r with shadow := none, shadowAge := 0 }

/-- The read shadow after one more oscillator period: released in the 33rd (R440). -/
def Rtc.ageShadow (r : Rtc) : Rtc :=
  if r.shadow = none then r else if 32 ≤ r.shadowAge then r.unshadow else { r with shadowAge := r.shadowAge + 1 }

/-- The trimmed counter after one oscillator period with HALT clear (R437, R445). -/
def Rtc.count (r : Rtc) : Rtc :=
  let acc := r.acc + r.trim
  let (acc, up) := if 16000000 ≤ acc then (acc - 16000000, 2) else if acc ≤ -16000000 then (acc + 16000000, 0) else (acc, 1)
  { r with acc := acc, cnt := (r.cnt + up) % 2 ^ 48 }

/-- The wake down-counter after one oscillator period: it runs while enabled with a period, and fires at zero (R450). -/
def Rtc.countWake (r : Rtc) : Rtc := if r.wakeEn && r.period ≠ 0 then ({ r with wakeCnt := r.wakeCnt - 1 } : Rtc).fireWake else r

/-- One period of the 32.768 kHz oscillator (R437, R440, R445, R448, R450): a compare already due fires, the counter advances unless
HALT is set and fires the compare it reaches, the wake counts down, and the read shadow ages. -/
def Rtc.osc (r : Rtc) : Rtc :=
  let r := ({ r.fireCmp with running := true } : Rtc).ageShadow.countWake
  if r.halt then r else r.count.fireCmp

/-- The pair's value applied to the counter (R442): OSC_STOP clears, a gate in progress is void. A compare that the value reaches
waits for counting to resume, and fires as a skipped one (R448, R449). -/
def Rtc.setCnt (p : Pair) (r : Rtc) : Rtc :=
  let reached := decide (r.cmp.applied % 2 ^ 48 ≤ p.applied % 2 ^ 48)
  { r with cntPair := p, cnt := p.applied % 2 ^ 48, oscStop := false, written := reached, skipDue := reached, gate := false }

/-- A compare pair applied, at or below the counter a skip (R448). -/
def Rtc.setCmp (p : Pair) (r : Rtc) : Rtc :=
  { r with cmp := p, fired := false, skipped := false, written := false, skipDue := p.applied % 2 ^ 48 ≤ r.cnt }

/-- HALT (R442): setting it stops the counter and clears the accumulator; clearing it discards a held first write, and counting
resumes (R443, R448). -/
def Rtc.setHalt (h : Bool) (r : Rtc) : Rtc :=
  if h = r.halt then r
  else if h then { r with halt := true, acc := 0, gate := false }
  else { r with halt := false, written := false, cntPair := { r.cntPair with held := none } }

/-- CMP_EN set with the counter at or above the compare fires with SKIPPED (R448). -/
def Rtc.setCmpEn (b : Bool) (r : Rtc) : Rtc :=
  if b && !r.cmpEn then { r with cmpEn := true, written := false, skipDue := r.skipDue || decide (r.cmp.applied % 2 ^ 48 ≤ r.cnt) }
  else { r with cmpEn := b }

/-- MEAS_SRC written: VALID clears, and the first gate starts at the next instant of the reference (R446, R447). Log 67: DEDUCED. -/
def Rtc.setMeas (v : Nat) (r : Rtc) : Rtc := { r with measSrc := v, measValid := false, gate := false }

/-- A write of RTC_CTL (Table: RTC_CTL), MEAS_SRC with it: VALID clears, and gates start afresh when the source changes or `meas` says
that the write is one of the source. A mains gate is void without SHORE, and any under HALT (R447). -/
def Rtc.ctl (v : Word) (meas : Bool) (r : Rtc) : Rtc :=
  let n := v.toNat
  let r := if meas || bits n 6 5 ≠ r.measSrc then r.setMeas (bits n 6 5) else { r with measValid := false }
  let void := r.measSrc = 3 && !bit n 4
  (({ r with autoTrim := bit n 7, shore := bit n 4, gate := r.gate && !void && !bit n 0 } : Rtc).setCmpEn (bit n 2)).setHalt (bit n 0)

/-- TRIM stored at the nearer limit (Table: RTC_TRIM). -/
def Rtc.setTrim (t : Int) (r : Rtc) : Rtc := { r with trim := clampI (-8192) 8192 t, gate := false }

/-- RTC_WAKE written (R450, Table: RTC_WAKE). -/
def Rtc.setWake (v : Word) (r : Rtc) : Rtc :=
  let p := min (bits v.toNat 23 0) 16588800
  { r with wakeEn := bit v.toNat 31, period := p, wakeCnt := 128 * p }

/-- RTC_PWRON written: HOLD and the enables, LATCH cleared by a 1 (R451). -/
def Rtc.setPwron (v : Word) (r : Rtc) : Rtc :=
  { r with hold := bit v.toNat 2, onWake := bit v.toNat 1, onCmp := bit v.toNat 0, latch := r.latch && !bit v.toNat 3 }

/-- What a module reset does to the domain (R435); a discarded first write of the compare shows no longer (R396). -/
def Rtc.moduleReset (r : Rtc) : Rtc :=
  { r.setHalt false with shore := false, gate := false, cntPair := { r.cntPair with held := none }, cmp := Pair.of r.cmp.applied }

/-- The reference of MEAS_SRC is valid on this module (Table: Trim references). -/
def State.gateValid (s : State) : Bool :=
  match s.rtc.measSrc with
  | 1 => s.master && s.time.refValid && bits s.time.tref.toNat 1 0 = 1
  | 2 => s.master && s.time.refValid && bits s.time.tref.toNat 1 0 = 2
  | 3 => s.rtc.shore && s.field.mains ≠ 0
  | _ => false

/-- RTC_CNT_L reads a held first write (R395), else the low half of the shadow or the counter (R440). -/
def Rtc.readCntL (r : Rtc) (shadow : Option Nat) : Nat := if r.cntPair.held.isSome then r.cntPair.lo.toNat else (shadow.getD r.cnt) % 2 ^ 32

/-! The commands. -/

/-- R442, R490: RTC_CNT_H, locked while HALT is clear. -/
def execRtcCntWrite (v : Word) (s : State) : Out :=
  ok (regWrite 0x0C0C (fun s =>
    if s.rtc.halt then withRtc (fun r => r.setCnt (r.cntPair.second (v &&& 0xFFFF#32))) s
    else violate 3 true false 0x0C0C s) s)

/-- R448: RTC_CMP_H. -/
def execRtcCmpWrite (v : Word) (s : State) : Out :=
  ok (regWrite 0x0C1C (withRtc fun r => r.setCmp (r.cmp.second (v &&& 0xFFFF#32))) s)

/-- R442: a write of RTC_CTL that sets HALT. -/
def execRtcHaltSet (v : Word) (s : State) : Out :=
  ok (when_ (v.getLsbD 0) (regWrite 0x0C00 (withRtc (·.ctl v false))) s)

/-- R442, R443: a write of RTC_CTL that clears HALT. -/
def execRtcHaltClear (v : Word) (s : State) : Out :=
  ok (when_ (!v.getLsbD 0) (regWrite 0x0C00 (withRtc (·.ctl v false))) s)

/-- R448: a write of RTC_CTL that sets CMP_EN; a compare already reached fires at once. -/
def execRtcCmpEnSet (v : Word) (s : State) : Out :=
  ok (when_ (v.getLsbD 2) (regWrite 0x0C00 (withRtc fun r => (r.ctl v false).fireCmp)) s)

/-- R446: a write of MEAS_SRC. -/
def execRtcMeasSrcWrite (v : Word) (s : State) : Out :=
  ok (regWrite 0x0C00 (withRtc (·.ctl v true)) s)

/-- R450. -/
def execRtcWakeWrite (v : Word) (s : State) : Out := ok (regWrite 0x0C20 (withRtc (·.setWake v)) s)

/-- R445, R447: [14:0] TRIM, signed. -/
def execRtcTrimWrite (v : Word) (s : State) : Out :=
  ok (regWrite 0x0C24 (withRtc (·.setTrim (sx 15 (v.toNat % 2 ^ 15)))) s)

/-- R451. -/
def execRtcPwronWrite (v : Word) (s : State) : Out := ok (regWrite 0x0C2C (withRtc (·.setPwron v)) s)

/-- R440, R441: a read of RTC_CNT_L takes a shadow, or a new one. -/
def execRtcCntLRead (s : State) : Out :=
  ok (regRead 0x0C08 (fun s => withRd (s.rtc.readCntL (some s.rtc.cnt)) (withRtc (fun r => { r with shadow := some r.cnt, shadowAge := 0 }) s)) s)

/-- R440: the read of RTC_CAL_1 releases the shadow. -/
def execRtcCal1Read (s : State) : Out := 
  ok (regRead 0x0C14 (fun s => withRd (cal1 (s.rtc.shadow.getD s.rtc.cnt)) (withRtc Rtc.unshadow s)) s)

/-- R440: the end of the 33rd oscillator period after it was taken. -/
def execRtcShadowTimeout (s : State) : Out := ok (when_ (32 ≤ s.rtc.shadowAge) (withRtc Rtc.unshadow) s)

/-- R448, R451. -/
def execRtcCompareFire (s : State) : Out := ok (when_ (s.sys.mode ≠ 1) (withRtc Rtc.fireCmp) s)

/-- R450, R451: the down-counter stands at zero. -/
def execRtcWakeFire (s : State) : Out := ok (when_ (s.sys.mode ≠ 1) (withRtc Rtc.fireWake) s)

/-- R439: no oscillator edge for more than 1 ms. -/
def execOscStop (s : State) : Out := ok (when_ (s.sys.mode ≠ 1) (withRtc fun r => { r with oscStop := true, running := false }) s)

/-- The result of a gate that ends (R446): ERR from N_c, SRC and VALID, TRIM under AUTO_TRIM; the next gate starts. -/
def Rtc.endGate (r : Rtc) : Rtc :=
  let e := clampI (-32767) 32767 (divr (((r.gateCount : Int) - 33554432) * 16000000) 33554432)
  let r := { r with measErr := e, measSrcOf := r.measSrc, measValid := true }
  (if r.autoTrim then r.setTrim (r.trim - e) else r).openGate

/-- A gate whose reference does not hold is void (R447). -/
def voidGate (s : State) : State := withRtc (fun r => { r with gate := r.gate && s.gateValid }) s

/-- An instant of a reference (R446, R447), which counts when MEAS_SRC names it: with `ends` the gate in progress has lasted its 1 024 s and
gives its result; where a void one or none runs, the next starts. Log 67: DEDUCED. -/
def execTrimGateEnd (src : Fin 4) (ends : Bool) (s : State) : Out :=
  ok (when_ (src.val = s.rtc.measSrc && s.gateValid && !s.rtc.halt) (withRtc fun r => if !r.gate then r.openGate else if ends then r.endGate else r) s)

/-- R436: every 60 s while VIN is present. -/
def execVbatLowCheck (mv : Nat) (s : State) : Out :=
  ok (when_ (3 ≤ s.sys.mode) (withRtc fun r => { r with vbatLow := mv < 2300 }) s)

/-- Domain time as the counter would read it (R444). -/
def domainCnt (tick : Nat) : Nat := tick * 32768 / 1000 % 2 ^ 48

/-- The sequence of R442 run by the control firmware. -/
def Rtc.setTo (n : Nat) (r : Rtc) : Rtc := (((r.setHalt true).setCnt (Pair.of n)).setHalt false)

/-- R444: at admission and every 3 600 000 ticks after it, on a worker. Log 41: DEDUCED. -/
def execWorkerRtcSync (s : State) : Out :=
  let due := match (if s.dom.admitted then s.dom.admittedAt else s.dom.admitTick) with
    | some a => a ≤ s.tick + 1 && (s.tick - a) % 3600000 = 0
    | none => false
  let d : Int := (s.rtc.cnt : Int) - domainCnt s.tick
  ok (when_ (s.sys.role = 3 && s.time.domain && due && 32768 < d.natAbs) (withRtc (·.setTo (domainCnt s.tick))) s)

/-- R486: a worker's RTC settings from the mode section, through the sequences of the chapter. -/
def applyRtcSection (m : ModeSec) (s : State) : State :=
  if s.sys.role = 3 && m.rtcPresent then
    withRtc (fun r => { ((r.setCmp (Pair.of m.cmp)).setCmpEn m.cmpEn).setWake (BitVec.ofNat 32 m.wake) with
      onCmp := m.onCmp, onWake := m.onWake, hold := m.hold }) s
  else s

/-- R435: the backup domain starts from no supply at all. -/
def backupStart (s : State) : State :=
  { s with rtc := {}, sys := setCause 1 s.sys, panels := s.panels.map fun p => { p with journal := [] } }

/-- The backup domain loses all supply, and what it held with it. -/
def backupLost (s : State) : State := { backupStart s with rtc := { up := false } }

/-- Supply comes to the backup domain, from VBAT or from a feed. -/
def backupSupply (s : State) : State := if s.rtc.up then s else backupStart s

/-- R435, R451: a domain that had no supply starts. -/
def execBackupDomainStart (s : State) : Out := ok (backupSupply s)

end Sys2Proof.Machine
end

