-- ==== Sys2Proof/Machine/Panel.lean ====
section
/-! DEFINITION. The two bistable panels (14_panels_and_lamps R397 to R425): pages, operations, rails, certificate, journal
and recovery. -/

namespace Sys2Proof.Machine

def State.panel (s : State) (i : Nat) : Panel := s.panels.getD i {}
def setPanel (i : Nat) (p : Panel) (s : State) : State := { s with panels := s.panels.set i p }
def modPanel (i : Nat) (f : Panel → Panel) (s : State) : State := setPanel i (f (s.panel i)) s

/-! Planes, packed as R408. -/

def planeLen (c : PanelSet) : Nat := c.width * c.height / 2
def whitePlane (c : PanelSet) : List Byte := List.replicate (planeLen c) 0xFF#8

/-- Grey level of pixel (x, y) of a plane of width `w`. -/
def pixel (plane : List Byte) (w x y : Nat) : Nat := field (plane.getD ((y * w + x) / 2) 0).toNat 4 (x % 2)

/-- `region` placed in `plane` at (x0, y0), row by row; x0 and the width are even. -/
def placeRegion (plane region : List Byte) (w : Nat) (o : PanelOp) : List Byte :=
  (List.range o.h).foldl (fun p r =>
    let at_ := ((o.y0 + r) * w + o.x0) / 2
    p.take at_ ++ slice region (r * o.w / 2) (o.w / 2) ++ p.drop (at_ + o.w / 2)) plane

/-- The bytes of a region of a plane. -/
def cutRegion (plane : List Byte) (w : Nat) (o : PanelOp) : List Byte :=
  ((List.range o.h).map fun r => slice plane (((o.y0 + r) * w + o.x0) / 2) (o.w / 2)).flatten

/-! The built-in page (R420 to R422). -/

def chars (t : String) : List Nat := t.toList.map Char.toNat
def dec0 (n : Nat) : List Nat := chars (toString n)
/-- At least two digits. -/
def dec2 (n : Nat) : List Nat := if n < 10 then 48 :: dec0 n else dec0 n
/-- Exactly `w` columns, blanks after. -/
def padTo (w : Nat) (l : List Nat) : List Nat := (l ++ List.replicate w 32).take w

/-- LAST_ENG / 1 000 with three decimals (R421). -/
def engText (x : Int) : List Nat :=
  let a := x.natAbs
  (if x < 0 then [45] else []) ++ dec0 (a / 1000) ++ [46] ++ (chars (toString (1000 + a % 1000))).drop 1

/-- The label of a point, in the order of the section. -/
def labelOf (p : PanelSec) (q : Nat) : Option (List Nat) :=
  (p.labels.find? fun l => l.point = q).map fun l => (l.text.map (·.toNat)).takeWhile (· ≠ 0)

/-- An alarm row (R421). -/
def alarmRow (prio : Nat) (label : List Nat) (s : PointState) : List Nat :=
  let word := match s.state with
    | 1 => "ALARM*"
    | 2 => "ALARM "
    | 3 => "RETN* "
    | 7 => "FAULT*"
    | _ => "FAULT "
  let v := if s.state = 7 || s.state = 8 then chars "----" else engText s.lastEng
  padTo 2 (dec0 prio) ++ padTo 7 (chars word) ++ padTo 23 label ++ (List.replicate (12 - v.length) 32 ++ v).drop (v.length - 12)

def unackState (st : Nat) : Bool := st = 1 || st = 3 || st = 7

/-- The alarm points of a page in order: 1, 3 and 7 first, then PRIO descending, then point ascending (R421). -/
def pagePoints (e : Epoch) (d : Dec) (p : PanelSec) : List Nat :=
  let all := (List.range 1024).filter fun q => (labelOf p q).isSome && e.configured q && (d.pt q).state ∈ [1, 2, 3, 7, 8]
  let by_ := fun (u : Bool) (k : Nat) => all.filter fun q => unackState (d.pt q).state = u && (e.pt q).prio = k
  [true, false].flatMap fun u => [3, 2, 1, 0].flatMap fun k => by_ u k

/-- The page record composed in tick `n` for panel `i` (R420, R421): rows of text with their inverse bits. -/
def composePage (e : Epoch) (d : Dec) (dev n i : Nat) : List (List Nat × Bool) :=
  match e.panel with
  | none => []
  | some p =>
    let c := p.panels.getD i {}
    let cols := c.width / 12
    let rows := c.height / 24
    let t := n / 1000 % 86400
    let head := chars "DEV " ++ dec2 dev ++ chars "  TIME " ++ dec2 (t / 3600) ++ [58] ++ dec2 (t / 60 % 60) ++ [58]
      ++ dec2 (t % 60) ++ chars "  EPOCH " ++ dec0 e.seq
    let ss := pageSet e d dev i
    let call := fun s => let w := d.word s
      (chars "CALL " ++ dec0 s ++ chars "  TIER " ++ dec0 (swTier w) ++ chars "  DUTY " ++ dec0 (swDuty w), true)
    let calls := if ss.length ≤ 4 then ss.map call
      else (ss.take 3).map call ++ [(chars "+" ++ dec0 (ss.length - 3) ++ chars " MORE CALLS", true)]
    let blank : List Nat × Bool := ([], false)
    let pts := pagePoints e d p
    let room := rows - 5
    let row := fun q => (alarmRow (e.pt q).prio ((labelOf p q).getD []) (d.pt q), unackState (d.pt q).state)
    let alarms := if pts.length ≤ room then pts.map row
      else (pts.take (room - 1)).map row ++ [(chars "+" ++ dec0 (pts.length - (room - 1)) ++ chars " MORE", false)]
    (((head, true) :: (calls ++ List.replicate (4 - calls.length) blank) ++ alarms
      ++ List.replicate rows blank).take rows).map fun r => (padTo cols r.1, r.2)

/-- Ink of character `ch` at column `c`, row `r` of its cell (R400, R422). -/
def ink (font : List Byte) (ch c r : Nat) : Bool :=
  let g := if 0x20 ≤ ch && ch < 0x80 then ch - 0x20 else 0
  let k := 12 * r + c
  bit (font.getD (36 * g + k / 8) 0).toNat (k % 8)

/-- A page rendered into a plane (R422). -/
def renderPage (p : PanelSec) (c : PanelSet) (rows : List (List Nat × Bool)) : List Byte :=
  let px := fun (x y : Nat) =>
    let row := rows.getD (y / 24) ([], false)
    if x / 12 < c.width / 12 && y / 24 < c.height / 24 then
      if ink p.font (row.1.getD (x / 12) 32) (x % 12) (y % 24) != row.2 then 0 else 15
    else 15
  (List.range (planeLen c)).map fun k =>
    let a := 2 * k
    BitVec.ofNat 8 (px (a % c.width) (a / c.width) + 16 * px ((a + 1) % c.width) ((a + 1) / c.width))

/-- The pixels of an image of record. -/
def imagePlane (e : Epoch) (i : Nat) (m : PanelImage) : List Byte :=
  if m.rows = [] then m.pixels else renderPage (e.panel.getD {}) (e.panelSet i) m.rows

/-! Operations (R405 to R413). -/

/-- The mode permits operations on panel `i` (Table: Panel states by mode). -/
def panelMode (mode i : Nat) : Bool := mode ∈ [7, 8, 9, 10, 12] || (mode = 11 && i = 1)

def State.panelEnabled (s : State) (i : Nat) : Bool := s.railCfg.getLsbD (16 + i)
def State.railHold (s : State) : Nat := s.railCfg.toNat % 65536

/-- The waveform band `b` of panel `i` (R402). -/
def waveBand (e : Epoch) (i b : Nat) : Band := (((e.panel.getD {}).waves.getD i []).getD b {})

/-- The band for a temperature (R407). -/
def bandOf (c : PanelSet) (t : Int) : Nat := (c.thresholds.takeWhile fun x => x ≤ t).length

/-- The band step 3 fixes (R407): BAND_POINT when valid in this tick, else the internal sensor. -/
def State.fixBand (s : State) (i : Nat) : Nat :=
  let c := s.cfg.e.panelSet i
  let q := s.view.pt c.bandPoint
  bandOf c (if c.bandValid && s.decides && !q.f && !q.held && !q.noValue && q.state ≠ 6 then q.lastEng else Config.internalTemp s.free)

/-- Frames of an operation's waveform. -/
def opFrames (b : Band) (kind : Nat) : Nat := if kind = 1 then b.clearFrames else b.frames

/-- Drive code of pixel (x, y) in frame `f` of an operation (R399, R406, R409, R410). -/
def driveOf (c : PanelSet) (b : Band) (o : PanelOp) (old new : List Byte) (f x y : Nat) : Nat :=
  if !(o.x0 ≤ x && x < o.x0 + o.w && o.y0 ≤ y && y < o.y0 + o.h) then 0
  else
    let u := pixel old c.width x y
    match o.kind with
    | 0 => driveCode (transition b u (pixel new c.width x y)) f
    | 1 => driveCode (clearWave b) f
    | _ =>
      let v := driveCode (transition b u u) f
      let inv := match c.inv with
        | 1 => f % 2 = 1
        | 2 => y % 2 = 1
        | 3 => (x + y) % 2 = 1
        | _ => false
      if inv && v ≠ 0 then 3 - v else v

/-- The whole panel as a region. -/
def wholeOp (c : PanelSet) (kind id : Nat) (redraw : Bool) (j : Option Job) : PanelOp :=
  { kind := kind, id := id, w := c.width, h := c.height, redraw := redraw, job := j }

/-- The code PNL_STAT shows while an operation drives. -/
def opState (kind : Nat) : Nat := 3 + kind

/-- Table: Journal record, with the CRC of R21. -/
def encJournal (j : PanelJournal) : List Byte :=
  let body := leBytes 1 j.state ++ leBytes 1 j.kind ++ leBytes 2 j.id ++ leBytes 2 j.tableId ++ leBytes 1 j.band ++ leBytes 1 j.frames
    ++ leBytes 1 j.reached ++ leBytes 1 0 ++ leBytes 2 j.x0 ++ leBytes 2 j.y0 ++ leBytes 2 j.w ++ leBytes 2 j.h ++ leBytes 6 j.rtc
    ++ leBytes 4 j.crcNew ++ leBytes 4 j.epochSeq ++ leBytes 30 0
  body ++ leBytes 2 (crc16 body).toNat

/-- A journal record read back: absent when its CRC fails (R21, R418); STATE 0 in an empty journal. -/
def readJournal (b : List Byte) : Option PanelJournal :=
  if b = [] then some {}
  else if b.length ≠ 64 || u16 b 62 ≠ (crc16 (b.take 62)).toNat then none
  else some { state := u8 b 0, kind := u8 b 1, id := u16 b 2, tableId := u16 b 4, band := u8 b 6, frames := u8 b 7, reached := u8 b 8,
              x0 := u16 b 10, y0 := u16 b 12, w := u16 b 14, h := u16 b 16, rtc := u48 b 18, crcNew := u32 b 24, epochSeq := u32 b 28 }

/-- The journal record that stands, absent too where OSC_STOP is set or VBAT was lost (R418). -/
def State.journal (s : State) (p : Panel) : Option PanelJournal := if s.rtc.oscStop || s.rtc.vbatLost then none else readJournal p.journal

/-- Journal fields of an operation at step 4 of R406 (R416). -/
def journalAt (s : State) (i : Nat) (p : Panel) (o : PanelOp) (state reached : Nat) : PanelJournal :=
  { state := state, kind := o.kind, id := o.id, tableId := (s.cfg.e.panelSet i).tableId, band := p.band, frames := p.frames,
    reached := reached, x0 := o.x0, y0 := o.y0, w := o.w, h := o.h, rtc := s.rtc.cnt,
    crcNew := (p.images.head?.map (·.crc)).getD 0, epochSeq := s.cfg.e.seq }

def journalOf (s : State) (i : Nat) (p : Panel) (o : PanelOp) (state reached : Nat) : List Byte := encJournal (journalAt s i p o state reached)

/-- The record written again as the operation stops or ends: RTC_START, TABLE_ID and EPOCH_SEQ are those it began with (R416). -/
def journalAgain (s : State) (i : Nat) (p : Panel) (o : PanelOp) (state reached : Nat) : List Byte :=
  let now := journalAt s i p o state reached
  let was := (readJournal p.journal).getD now
  encJournal { now with rtc := was.rtc, tableId := was.tableId, epochSeq := was.epochSeq }

/-- R419: a stopped operation may go on from where it stopped: within 24 h, in the epoch it was begun in, with both images of record. -/
def resumable (s : State) (i : Nat) (p : Panel) (j : PanelJournal) : Bool :=
  (s.rtc.cnt + 2 ^ 48 - j.rtc) % 2 ^ 48 ≤ 2831155200 && j.tableId = (s.cfg.e.panelSet i).tableId && j.epochSeq = s.cfg.e.seq
    && (match p.images.head?, p.images[1]? with
      | some a, some b => a.ok && b.ok && a.crc = j.crcNew
      | _, _ => false)

/-- The rails go down, from this tick on (R411, R412). -/
def Panel.lower (p : Panel) (tick : Nat) : Panel :=
  { p with rails := false, railsUp := false, railDown := if p.railsUp then some tick else p.railDown }

/-- A clear and then the image of record, with the clear that already waits if one does (R409, R414, R419). -/
def Panel.redraw (p : Panel) (c : PanelSet) : Panel := { p with pendClear := some (p.pendClear.getD (wholeOp c 1 0 true none)) }

/-- Steps 4 and 5 of R406: the journal at STATE 1, and the rails. `first` is the first frame to drive. -/
def launch (i : Nat) (o : PanelOp) (band : Nat) (s : State) : State :=
  let b := waveBand s.cfg.e i band
  let p := { s.panel i with op := some o, band := band, frame := o.first, frames := opFrames b o.kind }
  let p := { p with journal := journalOf s i p o 1 o.first }
  let p := if p.rails then { p with st := opState o.kind }
    else { p with st := 2, railsUp := true, railAt := if p.railsUp then p.railAt else some s.tick }
  setPanel i p { s with free := s.free + 1 }

/-- An image becomes the newest image of record; the two newest are held (R374, R416). -/
def Panel.record (p : Panel) (m : PanelImage) : Panel := { p with images := (m :: p.images).take 2 }

/-- Step 2 of R406: the new image of record, of `n` bytes with its header, is written to flash and read back in detect-only mode (R374,
R376); one that fails with the reserve empty does not read. -/
def recordImage (i : Nat) (m : PanelImage) (n : Nat) (s : State) : State :=
  let r := program (logPage (0x06C00000 + 0x00200000 * i) 512 s) (pagesOf n) s
  setPanel i ((s.panel i).record { m with ok := r.1 }) r.2

/-- What the newest readable image of record shows (R419); white when neither reads. -/
def newestPlane (e : Epoch) (i : Nat) (p : Panel) : Option (List Byte) := (p.images.find? (·.ok)).map (imagePlane e i)

/-- Channel 14 still brings the buffer of a host update (R357, R406 step 1). -/
def State.placing (s : State) : Bool := let st := (tget {} s.mem.chans 14).state; st = 1 || st = 2

/-- The next operation of a free panel, by the order of R405. A stopped operation that R419 does not let go on is redrawn, for its
command (R413). Log 94: DEDUCED. -/
def startNext (i : Nat) (s : State) : State :=
  let c := s.cfg.e.panelSet i
  let p := s.panel i
  let band := s.fixBand i
  match p.interrupted with
  | some o =>
    if (s.journal p).any (resumable s i p) then launch i o p.band (setPanel i { p with interrupted := none } s)
    else launch i (wholeOp c 1 0 true o.job) band (setPanel i { p with interrupted := none } s)
  | none =>
    match p.pendClear with
    | some o => launch i o band (setPanel i { p with pendClear := none } s)
    | none =>
      match p.pendPage with
      | some rows =>
        let new := renderPage (s.cfg.e.panel.getD {}) c rows
        launch i (wholeOp c 0 0 false none) band
          (recordImage i { crc := crc32 new, rows := rows } 4096 (setPanel i { p with pendPage := none, new := new } s))
      | none =>
        match p.pendHost with
        | some (o, region) =>
          if s.placing then s else
          let new := placeRegion p.old region c.width o
          launch i o band
            (recordImage i { id := o.id, crc := crc32 new, pixels := new } (planeLen c + 8) (setPanel i { p with pendHost := none, new := new } s))
        | none =>
          if p.pendHold then launch i (wholeOp c 2 0 false none) band (setPanel i { p with pendHold := false, new := p.old } s)
          else s

/-- R405, R406: a free panel takes its next operation; a cleared enable or failed rails hold it. -/
def execPanelOperationStart (i : Fin 2) (s : State) : Out :=
  let p := s.panel i
  ok (when_ ((s.cfg.e.panelSet i).present && p.op.isNone && p.recovered && (panelMode s.sys.mode i || (s.sys.mode = 11 && p.interrupted.isSome))
    && s.panelEnabled i && p.railFail.isNone && s.sys.powerFail.isNone && !s.inReset 0x12) (startNext i) s)

/-- Rails within ±5 % of nominal (R411, R412), in mV. -/
def railsGood (c : PanelSet) (i : Nat) (rails : List Int) : Bool :=
  let nom := if i = 0 then c.railNom.map (· * 10) else [22000, -20000, 15000, -15000]
  rails.length = 4 && (rails.zip nom).all fun x => 20 * (x.1 - x.2).natAbs ≤ x.2.natAbs

/-- Log 22: DESIGN CHOICE. -/
def panelRail (i : Nat) (s : State) : State := raise 0xA1 (Config.panelRailDw4 i) (Config.panelRailDw5 i) s

/-- Ticks from the enable to the check that decides: 10 ms for panel A, whose rails may be good before it, 5 ms for B. -/
def railTicks (i : Nat) : Nat := if i = 0 then 10 else 5

/-- R411, R412: the rails are good by their deadline, or are dropped with PANEL_RAIL. -/
def execRailCheck (i : Fin 2) (rails : List Int) (s : State) : Out :=
  let p := s.panel i
  let due := p.railAt.all fun t => t + railTicks i ≤ s.tick
  ok (when_ (p.railsUp && !p.rails && (due || i.val = 0)) (fun s =>
    if railsGood (s.cfg.e.panelSet i) i rails then
      setPanel i { p with rails := true, st := match p.op with
        | some o => opState o.kind
        | none => 0 } s
    else if due then panelRail i (setPanel i { p.lower s.tick with railFail := some s.tick, st := 7 } s)
    else s) s)

/-- R411: 1 000 ticks after a rail failure the rails are raised again, in BLACKOUT for the running operation of panel A (R424). -/
def execPanelRailRetry (i : Fin 2) (s : State) : Out :=
  let p := s.panel i
  let due := match p.railFail with
    | some t => t + 1000 ≤ s.tick
    | none => false
  ok (when_ (due && s.panelEnabled i && (panelMode s.sys.mode i || (s.sys.mode = 11 && (p.op.isSome || p.interrupted.isSome))))
    (setPanel i { p with railFail := none, railsUp := true, railAt := some s.tick, st := 2 }) s)

/-- The frame slot of a panel (R397). -/
def frameSlot (i tick : Nat) : Bool := tick % 12 = 6 * i

/-- R413: the operation stops with STATE 3 and the rails go down; it is completed later, before any other. -/
def stopOp (i : Nat) (s : State) : State :=
  let p := s.panel i
  match p.op with
  | some o => setPanel i { p.lower s.tick with
      op := none, interrupted := some { o with first := p.frame }, st := 7, journal := journalAgain s i p o 3 p.frame, stopping := false } s
  | none => setPanel i (p.lower s.tick) s

/-- A frame of the panel is in progress at an edge: its 5.28 ms have not passed (R397). -/
def Panel.inFrame (p : Panel) (n : Nat) : Bool := p.frameAt.any fun t => n < t + 6

/-- R397, R406, R413: one frame at its slot; a rail out of tolerance at its start stops the operation after it (`panelEdge`). None
begins after a power-fail warning (R417). -/
def execPanelFrame (i : Fin 2) (rails : List Int) (s : State) : Out :=
  let p := s.panel i
  ok (when_ (frameSlot i s.tick && p.op.isSome && p.rails && p.frame < p.frames && !p.inFrame s.tick && s.sys.powerFail.isNone)
    (setPanel i { p with frame := p.frame + 1, frameAt := some s.tick, stopping := !railsGood (s.cfg.e.panelSet i) i rails }) s)

/-- At the edge of tick `n`, what a panel does once its frame is over: the operation stops for its rails, with PANEL_RAIL (R413), or
for the power-fail warning of the tick before or earlier (R417, R457). -/
def panelEdge (n i : Nat) (s : State) : State :=
  let p := s.panel i
  if p.inFrame n then s
  else if s.sys.powerFail.any fun w => w < n then (if p.op.isSome || p.railsUp then stopOp i s else s)
  else if p.stopping && p.op.isSome then
    modPanel i (fun p => { p with railFail := some n }) (panelRail i (stopOp i s))
  else s

/-- R415: MATCH, and PANEL_CRC with cause 1, once for each change of either value; a match, or no expected value, ends what was
reported. -/
def checkMatch (i : Nat) (s : State) : State :=
  let p := s.panel i
  let e := p.expect.toNat
  let m := e ≠ 0 && p.crc = e
  let s := setPanel i { p with isMatch := m } s
  if e ≠ 0 && !m && p.warned ≠ some (p.crc, e) then
    raise 0xA3 (i + 2) p.crc (modPanel i (fun p => { p with warned := some (p.crc, e) }) s)
  else when_ (m || e = 0) (modPanel i fun p => { p with warned := none }) s

/-- The UPDATE_ID of a PANEL_UPDATE; a PANEL_CLEAR has none (R409). -/
def Job.updateId (j : Job) : Nat := if j.cmd.op = 0x40 then j.cmd.arg1.toNat / 65536 else 0

/-- Step 7 of R406, R409: planes, journal, certificate, completion; a clear is followed by its update, whose band is fixed
afresh (R407). -/
def endOp (i : Nat) (s : State) : State :=
  let p := s.panel i
  let c := s.cfg.e.panelSet i
  match p.op with
  | none => s
  | some o =>
    let old := match o.kind with
      | 0 => placeRegion p.old (cutRegion p.new c.width o) c.width o
      | 1 => whitePlane c
      | _ => p.old
    let p := { p with old := old, crc := crc32 old, journal := journalAgain s i p o 2 p.frame, endTick := s.tick }
    match o.redraw, newestPlane s.cfg.e i p with
    | true, some new =>
      let s := checkMatch i (setPanel i { p with new := new } s)
      launch i (wholeOp c 0 0 false o.job) (s.fixBand i) s
    | _, _ =>
      let shed := s.sys.mode = 11 && i = 0
      let p := { (if shed then p.lower s.tick else p) with op := none, st := if shed then 8 else 0 }
      let s := checkMatch i (setPanel i p s)
      match o.job with
      | some j => finishJob j j.done p.crc j.updateId s
      | none => s

/-- The last frame begun is over: its 5.28 ms end in the sixth tick of its slot, after SAMPLE (R397). -/
def State.frameOver (s : State) (p : Panel) : Bool := p.frameAt.all fun t => t + 5 < s.tick || (t + 5 = s.tick && 2 ≤ s.time.phase)

/-- R406, R414: once the last frame is over, unless it stops the operation. -/
def execPanelOperationEnd (i : Fin 2) (s : State) : Out :=
  let p := s.panel i
  ok (when_ (p.op.isSome && p.frames ≤ p.frame && !p.stopping && s.frameOver p) (endOp i) s)

/-- R406: the rails go down RAIL_HOLD ticks after an operation, unless another needs them. -/
def execRailHoldExpiry (i : Fin 2) (s : State) : Out :=
  let p := s.panel i
  ok (when_ (p.railsUp && p.op.isNone && p.endTick + s.railHold ≤ s.tick && p.interrupted.isNone && p.pendClear.isNone
      && p.pendPage.isNone && p.pendHost.isNone && !p.pendHold)
    (setPanel i { p.lower s.tick with st := if s.sys.mode = 11 && i.val = 0 then 8 else 0 }) s)

/-- R405: HOLD_PERIOD ticks since the end of the last operation. -/
def execHoldRefreshDue (i : Fin 2) (s : State) : Out :=
  let c := s.cfg.e.panelSet i
  ok (when_ (c.present && c.holdPeriod ≠ 0 && (s.panel i).op.isNone && (s.panel i).endTick + c.holdPeriod ≤ s.tick)
    (modPanel i fun p => { p with pendHold := true }) s)

/-- The old plane as its memory holds it, with the bytes that have changed without an operation. -/
def Panel.held (p : Panel) (upset : List (Nat × Byte)) : List Byte := upset.foldl (fun l x => l.set x.1 x.2) p.old

/-- R414, R415: every 1 000 ticks the CRC is recomputed over the plane held; a change without an operation is reported and redrawn. -/
def execPanelCrcRecheck (i : Fin 2) (upset : List (Nat × Byte)) (s : State) : Out :=
  let c := s.cfg.e.panelSet i
  ok (when_ (c.present && s.tick % 1000 = 0) (fun s =>
    let p := s.panel i
    let old := p.held upset
    let s := if crc32 old = p.crc then s else raise 0xA3 i (crc32 old) (setPanel i { p.redraw c with old := old, crc := crc32 old } s)
    checkMatch i s) s)

/-- The page record of tick `n` on a panel with the built-in page (R420): one that differs from the newest image of record
becomes the pending page update. -/
def composeStep (e : Epoch) (d : Dec) (n i : Nat) (s : State) : State :=
  let c := e.panelSet i
  if c.present && c.builtin then
    let rows := composePage e d s.dom.dev n i
    let p := { s.panel i with page := rows }
    if (match p.images with
      | m :: _ => decide (m.rows = rows)
      | [] => false) then setPanel i p s else setPanel i { p with pendPage := some rows } s
  else s

/-- R420: in the Lull, once the tick is decided, with the epoch of that tick also after the switch (R389); the pages of delayed ticks come with the catch-up (R424). -/
def execPageCompose (i : Fin 2) (s : State) : Out :=
  ok (when_ (s.decides && s.tick % 1000 = 0 && 3 ≤ s.time.phase && s.rec_.block.isSome && s.dec.lastTick = some s.tick)
    (composeStep s.eNow s.dec s.tick i) s)

/-- R418, R419: what the journal record asks for, before any other operation. The old plane stays what it is until the clear of a redraw
leaves it white. Log 94: DEDUCED. -/
def recover (i : Nat) (s : State) : State :=
  let c := s.cfg.e.panelSet i
  let p := s.panel i
  let j := s.journal p
  let redraw := fun (j : PanelJournal) (s : State) =>
    raise 0xA2 (i + 2 + 65536 * j.id) j.reached
      (setPanel i { p.redraw c with recovered := true, st := 0 } s)
  let now := (newestPlane s.cfg.e i p).getD (whitePlane c)
  match j with
  | none => redraw {} s
  | some j =>
    match j.state with
    | 1 => redraw j s
    | 3 =>
      let prior := p.images[1]?
      if resumable s i p j then
        let o : PanelOp := { kind := j.kind, id := j.id, x0 := j.x0, y0 := j.y0, w := j.w, h := j.h, first := j.reached,
                             redraw := j.kind = 1 }
        let old := if j.kind = 0 then (prior.map (imagePlane s.cfg.e i)).getD (whitePlane c) else now
        raise 0xA2 (i + 65536 * j.id) j.reached
          (setPanel i { p with recovered := true, old := old, crc := crc32 old, new := now, band := j.band, interrupted := some o, st := 0 } s)
      else redraw j s
    | _ => setPanel i { p with recovered := true, old := now, crc := crc32 now, st := 0 } s

/-- R419: in the first mode that permits panel operations. -/
def execPanelRecovery (i : Fin 2) (s : State) : Out :=
  ok (when_ ((s.cfg.e.panelSet i).present && s.cfg.has && !(s.panel i).recovered && panelMode s.sys.mode i) (recover i) s)

/-- R417: when the power-fail area is complete no frame is in progress; an operation still open gets STATE 3 and the rails go down. -/
def panelsPowerFail (s : State) : State := stopOp 1 (stopOp 0 s)

/-- The commands whose operation runs, waits or was stopped on a panel. -/
def Panel.jobs (p : Panel) : List Job :=
  (p.op.bind (·.job)).toList ++ (p.pendClear.bind (·.job)).toList ++ (p.pendHost.bind (·.1.job)).toList
    ++ (p.interrupted.bind (·.job)).toList

/-- A panel that is not driven: nothing runs or waits and the rails are down (R401). -/
def Panel.absent (p : Panel) (tick : Nat) : Panel :=
  { p.lower tick with
    st := 9, op := none, pendClear := none, pendHost := none, pendPage := none, pendHold := false, interrupted := none,
    railFail := none }

/-- Panels after a change of epoch or a start: one not present reads ABSENT (R401, Table: PNL_STAT), and a command that was
still on it ends ABORTED. Log 94: DEDUCED. -/
def refreshPanels (s : State) : State :=
  (List.range 2).foldl (fun s i =>
    let p := s.panel i
    if (s.cfg.e.panelSet i).present && s.cfg.has then (if p.st = 9 then setPanel i { p with st := 0 } s else s)
    else (byRing (p.jobs.map fun j => (j.origin.place, j))).foldl (fun s j => finishJob j 5 0 0 s) (setPanel i (p.absent s.tick) s)) s

/-- The region and buffer of a PANEL_UPDATE keep R408. -/
def regionOk (c : PanelSet) (o : PanelOp) : Bool :=
  o.x0 % 4 = 0 && o.w % 4 = 0 && o.w ≠ 0 && o.h ≠ 0 && o.x0 + o.w ≤ c.width && o.y0 + o.h ≤ c.height

end Sys2Proof.Machine
end

