-- ==== Sys2Proof/Machine/Field.lean ====
section
/-! DEFINITION. The field side over one sampling window (03 to 06): ranging and the sample word, debouncing and counters,
output conditions, supply bands, protections, and the barrier link. -/

namespace Sys2Proof.Machine

def withField (f : Field → Field) (s : State) : State := { s with field := f s.field }
def Field.cell (f : Field) (k : Nat) : CellSt := tget {} f.cells k

/-- Full scale of a tag on the common scale (R99). -/
def fsOf (tag : Nat) : Nat := 2 ^ 23 * 4 ^ (5 - tag)

/-- A cell's range mode and TAG; a CJC cell is pinned at tag 3 (R116, R117). -/
def rangeMode (e : Epoch) (k : Nat) : Nat × Nat :=
  if e.cell.isCjc k then (1, 3) else ((e.cell.set k).mode, (e.cell.set k).tag)

/-- Every switch of the crosspoint is open: OFF to BOOT and RECOVERY (R149, R477), until the first Lull after BOOT (R81), or the link
is lost (R13), which leaves one closed. -/
def State.routesOpen (s : State) : Bool := s.sys.mode ≤ 5 || s.field.makeDue || s.field.dead

def onPins (v : BitVec 64) (n : Nat) : Bool := n < 64 && v.getLsbD n

/-- The cell has no route in force: never routed, shed (R81), or on pins under SURVEY (R90). A CJC cell has its own path. -/
def State.cellOff (s : State) (k : Nat) : Bool :=
  let r := s.field.route.cellR k
  (s.routesOpen || s.field.route.unrouted k || s.field.shed.getLsbD k || onPins s.field.survPins r.pPin || onPins s.field.survPins r.nPin)
    && !s.cfg.e.cell.isCjc k

/-- A stuck switch joins pin `n` (R80). -/
def Field.stuckPin (f : Field) (n : Nat) : Bool := f.stuck.any fun p => n = p.a || n = p.b

/-- Cell `k` uses source `idx` of `kind`: one of its pins carries it, or EXC_SRC names it. -/
def usesSource (r : Route) (kind idx k : Nat) : Bool :=
  !r.unrouted k && ((r.srcPins kind idx).any (fun n => n = (r.cellR k).pPin || n = (r.cellR k).nPin) || (kind = 1 && (r.cellR k).excSrc = idx))

/-- Source `idx` of `kind` is off (R77): on no pin, switches open, on a pin under SURVEY (R90) or of a stuck switch (R80), or
used only by shed cells (R81), which a LOUT stage never is (R149). A loop-supply switch in foldback counts as on. Log 102: DEDUCED. -/
def State.sourceOff (s : State) (kind idx : Nat) : Bool :=
  let r := s.field.route
  let ps := r.srcPins kind idx
  let users := (List.range 64).filter (usesSource r kind idx)
  s.routesOpen || ps = [] || ps.any (fun n => onPins s.field.survPins n || s.field.stuckPin n)
    || (kind ≠ 5 && users ≠ [] && users.all fun k => s.field.shed.getLsbD k)

/-- Restart after a filter reset in the Lull of tick `n` (R106): filter and interim values cleared, SETTLING to n + 6 (R82). A
range that a failed seam blocked stays blocked until the next epoch switch (R105). What of the cross-check and of a span's
conditions outlives the reset the manual does not say: the INVALID of a cross-check, its counts, and the conditions of the window
before are dropped. Log 142: DESIGN CHOICE. -/
def restartCell (e : Epoch) (n k : Nat) (f : Field) : Field :=
  let m := rangeMode e k
  { f with cells := tset {} f.cells k { tag := if m.1 = 0 then 0 else m.2, settle := n + 6, block := (f.cell k).block } }

def restartCells (e : Epoch) (n : Nat) (ks : List Nat) (f : Field) : Field := ks.foldl (fun f k => restartCell e n k f) f

/-- A cell that is pinned or read back holds its primary at TAG, routed or not (R100). -/
def pinTags (e : Epoch) (f : Field) : Field :=
  (List.range 64).foldl (fun f k =>
    let m := rangeMode e k
    if m.1 ≠ 0 && (f.cell k).tag ≠ m.2 then { f with cells := tset {} f.cells k { f.cell k with tag := m.2 } } else f) f

/-- Every routed cell and every CJC cell. -/
def routedCells (e : Epoch) (r : Route) : List Nat := (List.range 64).filter fun k => !r.unrouted k || e.cell.isCjc k

/-! Conversions, interim values and the weighted mean (R95, R96, R103). -/

/-- Conversions of a window. -/
def convs : Nat := 20480

/-- Sum of the conversions from cycle `lo` to before `hi`; `t` is where the first run begins. -/
def convSum (lo hi : Nat) : Nat → List (Nat × Int) → Int
  | _, [] => 0
  | t, (n, v) :: l => v * ((min hi (t + n) - max lo t : Nat) : Int) + convSum lo hi (t + n) l

/-- Sum of the conversions from cycle `lo` on, conversion j weighted 2j + 1: the rising half of the triangle. -/
def convRise (lo : Nat) : Nat → List (Nat × Int) → Int
  | _, [] => 0
  | t, (n, v) :: l => v * ((min convs (t + n) ^ 2 - max lo t ^ 2 : Nat) : Int) + convRise lo (t + n) l

/-- Weight of the whole triangle over two windows. -/
def triWeight : Nat := 2 * convs ^ 2

/-- The weighted mean of R96, times `triWeight`: the previous window on the rising half, this one on the falling. Log 100:
DESIGN CHOICE. -/
def triSum (half : Int) (lo : Nat) (l : List (Nat × Int)) : Int := half + 2 * convs * convSum lo convs 0 l - convRise lo 0 l

/-- Interim value `i` of a quantiser, times 2 560 (R103). -/
def interimSum (l : List (Nat × Int)) (i : Nat) : Int := convSum (2560 * i) (2560 * (i + 1)) 0 l

/-- Interim value `i` of a window whose filter was reset before cycle `lo`, times the conversions it holds, and how many. -/
def interimFrom (lo : Nat) (l : List (Nat × Int)) (i : Nat) : Int × Nat :=
  (convSum (max lo (2560 * i)) (2560 * (i + 1)) 0 l, 2560 * (i + 1) - max lo (2560 * i))

/-- Some conversion from cycle `lo` to before `hi` lies beyond `fs`. -/
def convBeyond (fs lo hi : Nat) : Nat → List (Nat × Int) → Bool
  | _, [] => false
  | t, (n, v) :: l => (max lo t < min hi (t + n) && fs < v.natAbs) || convBeyond fs lo hi (t + n) l

/-- What the notches at f and 3f leave of the pick-up, within the depth R114 states for how fast the bus frequency changes. -/
def notchRest (f rate : Nat) (pickup : Int) : Int :=
  let most : Int := pickup.natAbs / (if rate ≤ 5000 then 1000 else if rate ≤ 12000 then 100 else 1)
  clampI (-most) most (Config.notchLeft f pickup)

/-- What the notch stages take out of the weighted mean (R95, R114); a cell with NOTCH_OFF bypasses them. -/
def notchTakes (off : Bool) (f rate : Nat) (pickup : Int) : Int :=
  if off || pickup = 0 then 0 else pickup - notchRest f rate pickup

/-! Ranging (R101 to R106). -/

/-- Tag of the shadow quantiser (R101, R103); of a pinned or CJC cell too, which R100 leaves open. Log 103: DESIGN CHOICE. -/
def CellSt.shadow (c : CellSt) : Nat := c.tag - 1

/-- A move that fell due at the last edge, now made: 1 down into a seam, 2 the seam has ended, 3 the seam failed and the
cell reverts, blocked below (R105), 4 down while settling. -/
def CellSt.take (c : CellSt) : CellSt :=
  match c.due with
  | 1 => { c with due := 0, tag := c.tag + 1, dwell := 0, seam := 4 }
  | 4 => { c with due := 0, tag := c.tag + 1, dwell := 0 }
  | 2 => { c with due := 0, seam := 0, dwell := 0 }
  | 3 => { c with due := 0, seam := 0, dwell := 0, tag := c.tag - 1, block := some (c.tag - 1) }
  | _ => c

/-- Up one range (R101, R104): the shadow becomes the primary; a seam ends with that conversion. -/
def CellSt.up (c : CellSt) (loss : Bool) : CellSt :=
  { c.take with tag := c.take.tag - 1, dwell := 0, cut := 0 < c.take.seam, lossNow := c.take.lossNow || loss }

/-- Neither quantiser passed its FS in interim value `i` (R105). -/
def clearInterim (c : CellSt) (o : CellObs) (i : Nat) : Bool :=
  !o.clipped.getLsbD i && !convBeyond (fsOf c.tag) (2560 * i) (2560 * (i + 1)) 0 o.prim
    && !convBeyond (fsOf c.shadow) (2560 * i) (2560 * (i + 1)) 0 o.shad

/-- Comparisons that differ by more than 0.1 % of FS of the shadow's tag (R105). In a window with an upward swap the manual does
not say which tags the base and the FS tests of the interim values before the swap take: they take those the window ends with.
Log 142: DESIGN CHOICE. -/
def crossFails (c : CellSt) (o : CellObs) : Nat :=
  ((List.range 8).filter fun i =>
    clearInterim c o i && decide (fsOf c.shadow * 2560 < 1000 * (interimSum o.prim i - interimSum o.shad i).natAbs)).length

/-- All 8 interim values below 20 % of FS of the primary's tag (R103); in the window of a filter reset those that it has left, which
begin at cycle `lo` (R106). Log 142: DESIGN CHOICE. -/
def quiet (c : CellSt) (lo : Nat) (o : CellObs) : Bool := (List.range 8).all fun i =>
  let v := interimFrom lo o.prim i
  v.2 = 0 || 5 * v.1.natAbs < fsOf c.tag * v.2

/-- SAMPLE cycle of 920 µs, where the filters of changed cells are reset (R79). -/
def resetCycle : Nat := 18842

/-- First cycle whose conversions the filter holds in the window that ends at edge `n`: the window of the reset begins at it. -/
def firstCycle (c : CellSt) (n : Nat) : Nat := if c.settle = n + 5 then resetCycle else 0

/-- The cell at the edge that ends its window (R103 to R106). The cross-check applies from the first tick without SETTLING. Whether
failing windows before a seam count on after it the manual does not say: the seam leaves both counts as they are.
Log 142: DESIGN CHOICE. -/
def CellSt.edge (c : CellSt) (mode tag n : Nat) (o : CellObs) : CellSt :=
  let settling := n ≤ c.settle
  let bad := !settling && 2 < crossFails c o
  if mode = 2 then c
  else if 0 < c.seam then
    if c.cut then { c with seam := 0, cut := false, dwell := 0 }
    else if bad then { c with due := 3 }
    else { c with seam := c.seam - 1, due := if c.seam = 1 then 2 else 0 }
  else
    let c := if bad then { c with fails := c.fails + 1, passes := 0, bad := c.bad || decide (3 ≤ c.fails + 1) }
      else { c with fails := 0, passes := c.passes + 1, bad := c.bad && decide (c.passes + 1 < 3) }
    if mode ≠ 0 then c
    else
      let floor_ := match c.block with
        | some t => min tag t
        | none => tag
      let d := if quiet c (firstCycle c n) o && c.tag < floor_ then c.dwell + 1 else 0
      if d = (if settling then 1 else 8) then { c with dwell := 0, due := if settling then 4 else 1 } else { c with dwell := d }

/-- A due move of cell `k` made; a failed seam raises RANGE_SEAM (R105). -/
def takeDue (k : Nat) (s : State) : State :=
  let c := s.field.cell k
  let s' := withField (fun f => { f with cells := tset {} f.cells k c.take }) s
  if c.due = 3 then raise 0x83 (k + 256 * (c.tag - 1)) 0 s' else s'

/-! The sample word (R108 to R110). -/

/-- VALUE and RANGE of a filtered value, given times `triWeight`, from a tag on, raised until it fits; saturated at tag 0
(R109). Whether it fits is judged on the rounded value. Log 104: DESIGN CHOICE. -/
def fitValue (x : Int) : Nat → Nat × Int × Bool
  | 0 =>
    let v := divr x (triWeight * 4 ^ 5)
    if v.natAbs ≤ 2 ^ 23 - 1 then (0, v, false) else (0, if v < 0 then -(2 ^ 23 - 1) else 2 ^ 23 - 1, true)
  | t + 1 =>
    let v := divr x (triWeight * 4 ^ (5 - (t + 1)))
    if v.natAbs ≤ 2 ^ 23 - 1 then (t + 1, v, false) else fitValue x t

/-- A pin of the cell carries source `idx` of `kind` for some set `idx`. -/
def pinHas (r : Route) (k kind : Nat) (on : Nat → Bool) : Bool :=
  [(r.cellR k).pPin, (r.cellR k).nPin].any fun n => n < 64 && (r.pin n).srcKind = kind && on (r.pin n).srcIndex

/-- The filtered value of a cell at edge `n`, times `triWeight` (R95, R96, R114). -/
def filteredSum (f : Field) (notchOff : Bool) (rate n : Nat) (c : CellSt) (o : CellObs) : Int :=
  triSum c.half (firstCycle c n) o.prim - triWeight * notchTakes notchOff f.notch rate o.pickup

/-- Sample word of cell `k` at edge `n`, and the cell after it. `lost`: the sample block is incomplete, which sets INVALID
beside the flags the cell has (R14, R110). Log 105: DEDUCED. -/
def sampleOf (s : State) (w : Window) (lost : Bool) (n k : Nat) : CellSt × Nat :=
  let e := s.cfg.e
  let r := s.field.route
  let m := rangeMode e k
  let o := tget {} w.cells k
  let c := (s.field.cell k).take
  let seam := 0 < c.seam
  let c' := c.edge m.1 m.2 n o
  let lo := firstCycle c n
  let pins := [(r.cellR k).pPin, (r.cellR k).nPin]
  let beyond := convBeyond (fsOf c.tag) lo convs 0 o.prim
  let overNow := c.tag = 0 && beyond
  let invNow := o.commonMode || c.lossNow || (0 < c.tag && beyond)
  let x := filteredSum s.field (e.cell.set k).notchOff w.mains.rate n c o
  let fit := fitValue x c.tag
  let wide := overNow || c.spanOver || fit.2.2
  let inv := lost || s.cellOff k || invNow || c.spanInv || c'.bad || (m.1 ≠ 0 && fsOf m.2 * triWeight < x.natAbs)
    || pinHas r k 2 (fun i => w.vexc.getLsbD i && !s.sourceOff 2 i) || pins.any s.field.stuckPin
  let iexc := fun i => i < 16 && w.iexc.getLsbD i && !s.sourceOff 1 i
  let bias := match (r.cellR k).pPin with
    | p => p < 64 && (r.pin p).srcKind = 3 && !s.sourceOff 3 (r.pin p).srcIndex &&
        decide ((((r.bias.getD (r.pin p).srcIndex {}).level * 9 * 2 ^ 23 * convs : Nat) : Int) < convSum 0 convs 0 o.prim * 10)
  let open_ := pinHas r k 1 iexc || iexc (r.cellR k).excSrc || bias
  let word := (if inv then 2 ^ 24 * c.tag else 2 ^ 24 * fit.1 + tc 24 fit.2.1) + 2 ^ 27 * b2n seam
    + 2 ^ 28 * b2n (decide (n ≤ c.settle)) + 2 ^ 29 * b2n wide + 2 ^ 30 * b2n open_ + 2 ^ 31 * b2n inv
  ({ c' with spanOver := overNow, spanInv := invNow, lossNow := false, half := convRise lo 0 o.prim, halfS := convRise lo 0 o.shad }, word)

/-- V_r (R135): the shadow's filtered value, with the notches of its cell (R95, R114), held as counts of its tag 2, on the common
scale. -/
def readbackV (f : Field) (notchOff : Bool) (rate n : Nat) (c : CellSt) (o : CellObs) : Int :=
  let x := triSum c.halfS (firstCycle c n) o.shad - triWeight * notchTakes notchOff f.notch rate o.pickupS
  clampI (-(2 ^ 23 - 1)) (2 ^ 23 - 1) (divr x (triWeight * 4 ^ 3)) * 4 ^ 3

/-- Independent loop readback of a readback cell (R134 to R136). -/
def rbkOf (e : Epoch) (f : Field) (rate n : Nat) (o : CellObs) (word k : Nat) : Bool :=
  (rangeMode e k).1 = 2 && burdenK e k ≠ 0 && !swBad word && !swSettling word
    && decide (160000 < (divr (scaledV word * burdenK e k) (2 ^ 23) - divr (readbackV f (e.cell.set k).notchOff rate n (f.cell k) o * 1000000) (2 ^ 23)).natAbs)

/-! DIO inputs (R156 to R165). -/

/-- Class of a reading: mV on a plain input, µA under SENSE; between thresholds the previous class stays. -/
def classOf (c : DioChan) (prev : Nat) (x : Int) : Nat :=
  match c.sense with
  | 1 => if x < 500 then 2 else if x ≤ 1500 then 0 else if x < 2000 then prev else 1
  | 2 => if x < 350 then 2 else if x ≤ 1550 then 0 else if x < 1750 then prev else if x ≤ 6000 then 1 else 3
  | _ =>
    let (hi, lo) := if c.type3 then (9000, 7000) else (11500, 9500)
    if hi ≤ x then 1 else if x ≤ lo then 0 else prev

/-- A class as the settings of a channel know it: only SENSE 2 tells a short from a closed contact (R164), and a plain input a break
from an open one. -/
def senseClass (c : DioChan) (cls : Nat) : Nat :=
  if c.sense = 2 then cls else if cls = 3 then 1 else if cls = 2 && c.sense ≠ 1 then 0 else cls

/-- n of R158: SAMPLE cycles a new class must hold. -/
def debounceN (c : DioChan) : Nat := ceilDiv (c.debounceUs * 512) 25

/-- A debounced change at the debouncer: level of the last normal class (R164), and the counted edge (R165). -/
def Deb.change (d : Deb) (c : DioChan) (cls : Nat) : Deb :=
  let lvl := if cls = 1 then true else if cls = 0 then false else d.lvl
  let counted := (lvl && !d.lvl && (c.countEdge = 1 || c.countEdge = 3)) || (!lvl && d.lvl && (c.countEdge = 2 || c.countEdge = 3))
  { d with cls := cls, lvl := lvl, run := 0, count := if counted then (d.count + 1) % 2 ^ 32 else d.count }

/-- A debouncer as it starts under the settings `c`: it keeps its class, level and run, the manual naming no other start, and what
those settings cannot tell it takes as they show it. Log 143: DESIGN CHOICE. -/
def Deb.under (d : Deb) (c : DioChan) : Deb :=
  let cls := senseClass c d.cls
  { d with cls := cls, raw := senseClass c d.raw, lvl := if cls = 1 then true else if cls = 0 then false else d.lvl }

/-- The debounced class changes to the raw one; `k` counts the changes of level. -/
def Deb.settle (d : Deb) (c : DioChan) (k : Nat) : Deb × Nat :=
  let d' := d.change c d.raw
  (d', if d'.lvl = d.lvl then k else k + 1)

/-- `len` cycles of one raw class; answers the debouncer and how often its level changed (R158, R159). A class held for n
cycles changes the debounced one in the cycle after them: `last` says that this cycle lies beyond the window (R165). -/
def Deb.hold (d : Deb) (c : DioChan) (cls len : Nat) (last : Bool) (k : Nat) : Deb × Nat :=
  if cls = d.cls then ({ d with raw := cls, run := 0 }, k)
  else
    let run := (if cls = d.raw then d.run else 0) + len
    let d' : Deb := { d with raw := cls, run := run }
    if debounceN c < run || (debounceN c = run && !last) then d'.settle c k else (d', k)

/-- A window of readings (R157, R158): `t` is the cycle reached. -/
def Deb.scan (c : DioChan) : Deb → Nat → Nat → List (Nat × Int) → Deb × Nat
  | d, t, k, [] => d.hold c d.raw (20480 - t) true k
  | d, t, k, (u, x) :: rest =>
    let (d, k) := if u ≤ t then (d, k) else d.hold c d.raw (u - t) false k
    Deb.scan c (if classOf c d.raw x = d.raw then d else { d with raw := classOf c d.raw x, run := 0 }) (max t u) k rest

/-- One window of a channel's debouncer. A class that the window before held to its end, for n cycles, changes in cycle 0. -/
def Deb.window (d : Deb) (c : DioChan) (changes : List (Nat × Int)) : Deb × Nat :=
  let d : Deb := { d with prev := d.lvl }
  let (d, k) := if d.raw ≠ d.cls && debounceN c ≤ d.run then d.settle c 0 else (d, 0)
  Deb.scan c d 0 k changes

/-- DIN of an input (R160): with PULSE_CATCH, two transitions that end where they began show for one tick,
also while the class is break or short and the level is the one it kept. Log 160: DESIGN CHOICE. -/
def dinOf (c : DioChan) (d : Deb) (k : Nat) : Bool := if c.pulseCatch && d.lvl = d.prev && 2 ≤ k then !d.lvl else d.lvl

/-! Outputs and supplies. -/

/-- Period of a frequency repeat in SAMPLE cycles, 0 when it drives low (R177). -/
def repeatPeriod (mHz : Nat) : Nat := if mHz < 100 then 0 else (divr 20480000000 mHz).toNat

/-- SAMPLE cycles of a PWM period in which the pin is high (R178). -/
def pwmHigh (duty : Nat) : Nat := 5 * duty

/-- The generator one tick on: the period in progress completes, then the one that governs begins (R177). -/
def Gen.advance (g : Gen) : Gen :=
  if g.p = 0 then g
  else
    let left := g.p - g.ph
    if convs < left then { g with ph := g.ph + convs }
    else { g with p := g.next, ph := if g.next = 0 then 0 else (convs - left) % g.next }

/-- A period applied at an edge acts at the first rising transition at or after it (R177). -/
def Gen.apply (g : Gen) (p : Nat) : Gen := if g.p = 0 || g.ph = 0 then { p := p, ph := 0, next := p } else { g with next := p }

/-- The generator's pin level at SAMPLE cycle `t` of the tick. -/
def Gen.level (g : Gen) (t : Nat) : Bool :=
  if g.p = 0 then false
  else if t < g.p - g.ph then g.ph + t < g.p / 2
  else g.next ≠ 0 && (t - (g.p - g.ph)) % g.next < g.next / 2

/-- Level of output `ch` at SAMPLE cycle `t` of the tick in progress, with what is applied (R170, R177, R178). -/
def Field.level (f : Field) (ch t : Nat) : Bool :=
  match f.applied.dio.getD ch .off with
  | .off => false
  | .on => true
  | .freq _ => (tget {} f.gens ch).level t
  | .duty v => t < pwmHigh v

/-- The generator is high at some cycle from 10 240 on, the last 500 µs of the tick. -/
def Gen.drives (g : Gen) : Bool :=
  g.p ≠ 0 && (g.level 10240 || (10240 ≤ g.p - g.ph && g.p - g.ph < convs && g.next ≠ 0)
    || (g.p - g.ph < 10240 && g.next ≠ 0 && 10240 + g.next - (10240 - (g.p - g.ph)) % g.next < convs))

/-- Output `ch` drives high at some time in the last 500 µs of the tick in progress. -/
def Field.drives (f : Field) (ch : Nat) : Bool :=
  match f.applied.dio.getD ch .off with
  | .off => false
  | .on => true
  | .freq _ => (tget {} f.gens ch).drives
  | .duty v => 10240 < pwmHigh v

/-- The settings that the window just ended was sampled by. -/
def Field.chan (f : Field) (ch : Nat) : DioChan := f.dioSet.getD ch {}

/-- DOUT code of channel `ch` (R172, R173); a channel that does not drive because its LPb is missing is off by protection.
Log 106: DEDUCED. -/
def doutCode (s : State) (w : Window) (ch : Nat) : Nat :=
  let c := s.field.chan ch
  let o := tget {} w.dio ch
  let on := s.field.drove.getLsbD ch
  if c.dir ≠ 2 then 0
  else if tget 0 s.field.dioOff ch ≠ 0 || (on && s.field.bands.getD (ch / 8) 0 = 2) then 3
  else if on && o.limit then 2
  else if (if on then o.loadUa < 2000 else c.olOff && 4000 < o.offMv) then 1
  else 0

/-- The measured headroom would carry `u` µA with 1 V to spare (R144): the pin voltage in proportion, under LSUP − 3 V.
Log 107: DEDUCED. -/
def carries (lsupMv u : Nat) (x : LoutObs) : Bool := 0 < x.ua && decide (u * x.pinMv + 4000 * x.ua ≤ lsupMv * x.ua)

/-- LOUT status byte of output `i` for the window just ended, on what was applied in it and as what it was staged (R144); a disabled
output or one on no pin reports zero. -/
def loutByte (s : State) (w : Window) (i : Nat) : Nat :=
  let x := tget {} w.lout i
  let m := s.field.was.marks.getD i {}
  if !m.placed then 0
  else
    match s.field.was.louts.getD i .off with
    | .off => 8 * b2n m.prot
    | .ua u =>
      1 + 2 * b2n x.compliance + 4 * b2n m.fail + 16 * b2n (!x.compliance && decide (160 < ((x.ua : Int) - u).natAbs))
        + 32 * b2n (m.volt && (match (tget ({} : LoutState) s.dec.louts i).wantUa with
          | some v => carries (w.lp.getD 4 0) v x
          | none => false))

/-- Field supply band with its hysteresis (R183); a mean on a boundary, or 0.5 V past it. Log 135: DESIGN CHOICE. -/
def bandCode (prev : Nat) (mv : Nat) : Nat :=
  let lo := fun (b : Nat) => if prev = b then 500 else 0
  let b0 := if mv < 9000 then 2 else if mv < 18000 then 1 else if mv ≤ 32000 then 0 else 3
  let stay : Bool := match prev with
    | 2 => mv < 9000 + lo 2
    | 1 => 9000 - lo 1 < mv && mv < 18000 + lo 1
    | 0 => 18000 - lo 0 < mv && mv ≤ 32000 + lo 0
    | _ => 32000 - lo 3 < mv
  if stay then prev else b0

/-- MAINS_FREQ in 1/65 536 Hz (R112); a period whose amplitude lies outside 0.5 to 7.0 V rms is no valid one (R508). -/
def mainsFreq (m : MainsObs) : Nat :=
  let sum := (m.periods.map (·.1)).foldl (· + ·) 0
  let bad := fun (x : Nat × Nat) => x.1 * 70 < 1000000000 || 1000000000 < x.1 * 40 || decide (sum < 20 * (((4 * x.1 : Nat) : Int) - (sum : Nat)).natAbs)
    || x.2 < 500 || 7000 < x.2
  if !m.crossing || m.periods.length ≠ 4 || m.periods.any bad then 0
  else (divr (4000000000 * 65536) sum).toNat

/-- PANEL clocks of each tick for which a sink of a DUTY is on, from the edge (R426). -/
def lampClocks (duty : Nat) : Nat := duty * 40000 / 255

/-- A sink of a DUTY has on-time in the last 500 µs of a tick (R426, R429). -/
def lampLate (duty : Nat) : Bool := 20000 < lampClocks duty

/-- Current of a CURRENT code in µA, rounded down (R426: 1 + 39c / 63 mA). -/
def lampUa (current : Nat) : Nat := 1000 + 39000 * current / 63

/-- What sink `n` was driven with in the window just ended, a test before what was applied (R430). -/
def State.lampWas (s : State) (n : Nat) : LampCmd :=
  if s.field.lampTests.any fun t => s.tick ≤ t.1 + 1 && bit t.2.1 n then .lit (s.cfg.e.lamp n).current 255 else s.field.was.lamps.getD n .dark

/-- LAMP code of sink `n` for the window just ended (R426, R429): judged over the on-time in its last 500 µs, and a window with none
keeps the previous code. Log 80: DEDUCED. -/
def lampCode (s : State) (w : Window) (n : Nat) : Nat :=
  if tget 0 s.field.lampOff n ≠ 0 then 3
  else match s.lampWas n, w.lampUa[n]?, w.lampMv[n]? with
    | .lit c d, some ua, some mv =>
      if !lampLate d then tget 0 s.field.lampCode n
      else if 2 * ua < lampUa c && mv < 300 then 1
      else if (s.cfg.e.lamp n).vsupMv < mv + 1500 then 2
      else 0
    | _, _, _ => tget 0 s.field.lampCode n

/-- LAMP_VF of sink `n` (R429): measured in every on-time, and kept otherwise. -/
def lampVf (s : State) (w : Window) (n : Nat) : Nat :=
  match s.lampWas n, w.lampMv[n]? with
  | .lit _ d, some mv => if tget 0 s.field.lampOff n = 0 && lampClocks d ≠ 0 then (s.cfg.e.lamp n).vsupMv - mv else tget 0 s.field.lampVf n
  | _, _ => tget 0 s.field.lampVf n

/-- A loop-supply switch feeds its pin: its source is on and foldback has not opened it (R133). -/
def State.lswPin (s : State) (n : Nat) : Bool := !s.sourceOff 4 n && (tget ({} : Lsw) s.field.lsw n).openAt.isNone

/-- A loop-supply switch over a window (R133): ticks without a break in current limit; 900 ticks after it opened it closes. -/
def Lsw.window (l : Lsw) (on limit : Bool) (n : Nat) : Lsw :=
  match l.openAt with
  | some t => if n < t + 900 then l else {}
  | none => { run := if on && limit then l.run + 1 else 0 }

/-- Protections whose time had run out before this edge, ended (R172, R426). -/
def endProtections (n : Nat) (f : Field) : Field :=
  { f with
           dioOff := f.dioOff.filter (fun x => n ≤ x.2 + 1000), lampOff := f.lampOff.filter (fun x => n ≤ x.2 + 1000) }

/-- LEAD_MEASURE takes the sample of its cell: 64 of them, after 6 ticks of settling (R88). -/
def leadSample (w : Window) (n : Nat) (words : List Nat) (f : Field) : Field :=
  match f.lead with
  | some j =>
    let k := j.cmd.arg1.toNat % 64
    if j.start + 6 < n && f.leadV.length < 64 then
      { f with leadV := f.leadV ++ [scaledV (words.getD k 0)], leadOpen := f.leadOpen || w.iexc.getLsbD (f.route.cellR k).excSrc }
    else f
  | none => f

def tblOf {α : Type} [DecidableEq α] (d : α) (l : List α) : Tbl α := l.zipIdx.foldl (fun t x => tset d t x.2 x.1) []

/-- The debouncers and counters over a window, by the settings it was sampled with (R158, R165, R180); a counter that a change of COUNT_EDGE resets is cleared before
its snapshot (R166, R182). -/
def debounced (s : State) (w : Window) : List (Deb × Nat) := tab 32 fun c =>
  let x := (tget {} s.field.deb c).window (s.field.chan c) (tget {} w.dio c).changes
  if c ∈ s.field.ctrReset then ({ x.1 with count := 0 }, x.2) else x

/-- What the window gives the record: the field part of a block, and the field side after it, which a lost block does not
hold up (R14). An output channel has no sensing condition (R161); one with DIR 0 is read like an input.
Log 7: DESIGN CHOICE. Log 9: DESIGN CHOICE. Log 97: DESIGN CHOICE. Log 108: DESIGN CHOICE. -/
def takeWindow (w : Window) (n : Nat) (s : State) : Block × State :=
  let e := s.cfg.e
  let lost := !w.complete
  let s := { s with field := endProtections n s.field }
  let cs := tab 64 (sampleOf s w lost n)
  let words := cs.map (·.2)
  let rbk := (List.range 64).foldl (fun a k => a + 2 ^ k * b2n (rbkOf e s.field w.mains.rate n (tget {} w.cells k) (words.getD k 0) k)) 0
  let s := (List.range 64).foldl (fun s k => if (s.field.cell k).due = 3 then takeDue k s else s) s
  let lampC := tab 16 (lampCode s w)
  let vin := 1024 * b2n s.sys.presentA + 2048 * b2n s.sys.presentB
  let debs := debounced s w
  let mains := mainsFreq w.mains
  let f := s.field
  let g := leadSample w n words { f with
    cells := tblOf {} (cs.map (·.1)), deb := tblOf {} (debs.map (·.1)), ctrReset := [], regulated := w.regulated, mains := mains, lampCode := tblOf 0 lampC
    lampVf := tblOf 0 (tab 16 (lampVf s w))
    lsw := tblOf {} (tab 32 fun i => (tget {} f.lsw i).window (s.lswPin i) (w.lsw.getLsbD i) n) }
  if w.complete then
    let din := (List.range 32).foldl (fun a c =>
      let d := debs.getD c ({}, 0)
      let b := if (f.chan c).dir = 2 then decide ((w.lp.getD (c / 8) 0 : Int) < 2 * (tget {} w.dio c).pinMv) else dinOf (f.chan c) d.1 d.2
      a + 2 ^ c * b2n b) 0
    let dcond := pack 2 (tab 32 fun c => if n ≤ tget 0 f.chanHold c then 3 else if (f.chan c).dir = 2 then 0 else
      match senseClass (f.chan c) (debs.getD c ({}, 0)).1.cls with
      | 2 => 1
      | 3 => 2
      | _ => 0)
    let count := tab 8 fun c => if (e.chan c).countEdge = 0 then 0 else (debs.getD c ({}, 0)).1.count
    let dout := pack 2 (tab 32 (doutCode s w))
    let bands := tab 5 fun i => bandCode (f.bands.getD i 0) (w.lp.getD i 0)
    let b : Block :=
      { tick := n, samples := words.map (BitVec.ofNat 32), din := din, dcond := dcond, count := count, mainsFreq := mains,
        rbk := rbk, lout := tab 8 (loutByte s w), dout := dout, supply := pack 2 bands + vin, lamp := pack 2 lampC }
    (b, { s with field := { g with
            last := w, prevDin := din, prevDout := dout, prevCount := count, bands := bands, lpMv := w.lp,
            lostRun := 0, lostTicks := f.lostTicks.filter fun t => n < t + 1000 } })
  else
    let b : Block :=
      { tick := n, blockLost := true, samples := words.map (BitVec.ofNat 32), din := f.prevDin,
        dcond := pack 2 (List.replicate 32 3), count := tab 8 fun c => f.prevCount.getD c 0, mainsFreq := mains, rbk := 0,
        lout := tab 8 fun i => (Config.lostLout n i).toNat, dout := f.prevDout, supply := pack 2 f.bands + vin, lamp := pack 2 lampC }
    let lost := n :: f.lostTicks.filter fun t => n < t + 1000
    let s := { s with field := { g with lostRun := f.lostRun + 1, lostTicks := lost, lastLost := some n } }
    let s := raise 0x81 (f.lostRun + 1) 0 s
    (b, if 3 ≤ lost.length then addCause (3, 0) s else s)

/-- A window in a mode without ticks but with power: inputs are read and edges counted all the same (R179). -/
def readInputs (w : Window) (s : State) : State := withField (fun f => { f with deb := tblOf {} ((debounced s w).map (·.1)), ctrReset := [], regulated := w.regulated }) s

/-! Commands of the field side. -/

/-- R101, R104: in autoranging above tag 0. -/
def execRangeUp (k : Fin 64) (loss : Bool) (s : State) : Out :=
  ok (when_ ((rangeMode s.cfg.e k).1 = 0 && 0 < (s.field.cell k).take.tag) (fun s =>
    withField (fun f => { f with cells := tset {} f.cells k ((f.cell k).up loss) }) (takeDue k s)) s)

/-- R103, R106: the eighth qualifying window, or one while settling, moves the cell down. -/
def execRangeDown (k : Fin 64) (s : State) : Out :=
  let c := s.field.cell k
  ok (when_ (c.due = 1 || c.due = 4) (takeDue k) s)

/-- R104, R105: the seam's fourth window has ended, or its comparison failed. -/
def execSeamEnd (k : Fin 64) (s : State) : Out :=
  let c := s.field.cell k
  ok (when_ (c.due = 2 || c.due = 3) (takeDue k) s)

/-- R105: three consecutive failing windows mark the cell INVALID until three pass; a seam that fails reverts. -/
def execCrossCheckFail (k : Fin 64) (s : State) : Out :=
  let c := s.field.cell k
  ok (when_ (3 ≤ c.fails || c.due = 3) (fun s =>
    if c.due = 3 then takeDue k s else withField (fun f => { f with cells := tset {} f.cells k { c with bad := true } }) s) s)

/-- R82: the settling ticks are over. -/
def execSettlingEnd (k : Fin 64) (s : State) : Out :=
  let c := s.field.cell k
  ok (when_ (c.settle < s.tick) (withField fun f => { f with cells := tset {} f.cells k { c with settle := 0 } }) s)

/-- R133: the 100th consecutive tick in current limit opens the switch, at the edge that ends it, for 900 ticks. -/
def execLswLimit (n : Fin 32) (s : State) : Out :=
  let l := tget ({} : Lsw) s.field.lsw n
  ok (when_ (s.lswPin n && l.openAt.isNone && 100 ≤ l.run) (fun s =>
    raise 0x84 n 0 (withField (fun f => { f with lsw := tset {} f.lsw n { openAt := some (s.tick - (l.run - 100)) } }) s)) s)

/-- R133: closed again after 900 ticks. -/
def execLswReclose (n : Fin 32) (s : State) : Out :=
  let due := match (tget ({} : Lsw) s.field.lsw n).openAt with
    | some t => t + 900 ≤ s.tick
    | none => false
  ok (when_ due (withField fun f => { f with lsw := tset {} f.lsw n {} }) s)

/-- Channels of bank `b`, in descending number, that go off until the sum of the rest is at or below 2.0 A (R172). -/
def bankSheds (on : Nat → Bool) (b : Nat) (ma : List Nat) : List Nat → Nat → List Nat
  | [], _ => []
  | i :: l, sum => if sum ≤ 2000 then [] else if on (8 * b + i) then (8 * b + i) :: bankSheds on b ma l (sum - ma.getD i 0)
      else bankSheds on b ma l sum

/-- What an overload switches off, among the channels `on` (R172). -/
def Overload.sheds (on : Nat → Bool) : Overload → List Nat
  | .limit c us => if 2000 ≤ us then [c.val] else []
  | .thermal c => [c.val]
  | .bank b us ma => if 2000 ≤ us then bankSheds on b ma [7, 6, 5, 4, 3, 2, 1, 0] ((ma.take 8).foldl (· + ·) 0) else []

/-- A channel that is commanded on, by the settings that the field side has. -/
def State.dioOn (s : State) (c : Nat) : Bool := (s.field.chan c).dir = 2 && s.field.applied.dio.getD c .off ≠ .off && tget 0 s.field.dioOff c = 0

/-- R172: switched off by the field side at a moment within the tick; one more than the tick is kept for the re-drive. -/
def execDioProtectionOff (x : Overload) (s : State) : Out :=
  ok (withField (fun f => { f with dioOff := (x.sheds s.dioOn).foldl (fun t c =>
    if s.dioOn c then tset 0 t c (s.tick + 1) else t) f.dioOff }) s)

/-- R172: re-driven at the first edge at least 1 000 ticks after the moment of the switch-off. -/
def execDioRedrive (c : Fin 32) (s : State) : Out :=
  ok (when_ (tget 0 s.field.dioOff c + 1000 ≤ s.tick) (withField fun f => { f with dioOff := tset 0 f.dioOff c 0 }) s)

/-- 2⁴⁰ · ln(a / b) for a ≥ b > 0, from the series of artanh((a − b) / (a + b)); `z` is its argument times 2⁴⁰. -/
def lnSeries (z : Nat) : Nat → Nat → Nat → Nat
  | 0, _, _ => 0
  | n + 1, k, p => 2 * p / k + lnSeries z n (k + 2) (p * z / 2 ^ 40 * z / 2 ^ 40)
def ln40 (a b : Nat) : Nat := let z := (a - b) * 2 ^ 40 / (a + b); lnSeries z 40 1 z

/-- τ in µs from t_d = τ · ln(50 / (50 − V_LP)) (R174); zero where V_LP leaves no reverse voltage. R174
names no rounding: `up` says whether the last place is rounded up. Log 109: DESIGN CHOICE. -/
def demagTau (tdUs vlpMv : Nat) (up : Bool) : Nat :=
  if 50000 ≤ vlpMv || vlpMv = 0 then 0 else tdUs * 2 ^ 40 / ln40 50000 (50000 - vlpMv) + b2n up

/-- R175: t_d and τ in 10 µs, L = τ × V_LP / I_on in mH, for a switch-off at 20 mA or more; no estimates for a t_d below 50 µs. The
switch-off of a channel that an epoch makes an input (R180) is measured like any other. -/
def execDemagMeasure (c : Fin 32) (tdUs ionMa vlpMv : Nat) (up : Bool) (s : State) : Out :=
  let tau := demagTau tdUs vlpMv up
  ok (when_ (20 ≤ ionMa) (withField fun f => { f with
    demag := tset (0, 0, 0) f.demag c (if tdUs < 50 then (tdUs / 10, 0, 0) else (tdUs / 10, tau / 10, tau * vlpMv / ionMa / 1000)) }) s)

/-- R426: a sink above 150 mW for 2 ms goes off. -/
def execLampProtectionOff (x : LampHeat) (s : State) : Out :=
  ok (when_ x.sheds (withField fun f => { f with lampOff := tset 0 f.lampOff x.lamp (s.tick + 1) }) s)

/-- R426: at the first edge 1 000 ticks later. -/
def execLampRedrive (n : Fin 16) (s : State) : Out :=
  ok (when_ (tget 0 s.field.lampOff n + 1000 ≤ s.tick) (withField fun f => { f with lampOff := tset 0 f.lampOff n 0 }) s)

/-- Loop counts, LOOP_VOLTAGE conditions and the off state start afresh (R147). -/
def restartLouts (s : State) : State := modDec Dec.restartLouts s

/-- Loop output `i` is off because a pin of it is under SURVEY or joined by a stuck switch (R80, R90). -/
def Field.loutHeld (f : Field) (i : Nat) : Bool := (f.route.srcPins 5 i).any fun n => onPins f.survPins n || f.stuckPin n

/-- What the outputs staged come to on the pins: no current from a loop output whose stage the break steps have switched off. -/
def Field.driven (f : Field) (x : Staged) : Staged := { x with louts := x.louts.zipIdx.map fun z => if f.loutHeld z.2 then .off else z.1 }

/-- SAFE of a loop output on barrier-link loss: hold last current is taken as the failure current (R13, R149). -/
def linkLossLout (o : LoopOut) : LoutCmd := if o.enable && o.safe ≠ 0 then .ua (failUa o) else .off

/-- The pins whose switch to a loop output that drives a current stays closed on barrier-link loss (R13). -/
def loopPinsOf (r : Route) (louts : List LoutCmd) : List Nat :=
  (List.range 64).filter fun n => (r.pin n).srcKind = 5 && louts.getD (r.pin n).srcIndex .off ≠ .off

/-- The loop outputs in `off` were switched off under R13: their counts start again with the next tick decided, kept for its replay
(R147). -/
def noteLinkLoss (off : List Nat) (s : State) : State :=
  let next := if s.work.isNone && s.dec.lastTick ≠ some s.tick then s.tick else s.tick + 1
  { s with rec_ := { s.rec_ with linkLost := (next, off) :: s.rec_.linkLost.filter fun x => s.tick < x.1 + 2048 } }

/-- What the field side drives on its own once the link is lost (R13, R149, R179): declared power-off states on the DIO outputs, SAFE
on the loop outputs, and the lamps as they are, which the logic side drives. -/
def linkLossOutputs (e : Epoch) (d : Dec) (x : Staged) : Staged :=
  let louts := tab 8 fun i => linkLossLout (e.lout i)
  { x with louts := louts, marks := safeMarks e louts, dio := tab 32 fun c => if (e.chan c).dir = 2 then dioPowerOff e d c else .off }

/-- R13: no strobe for more than 4 ms; the field side acts on its own. A repeat output that holds its frequency goes on with it. -/
def barrierLoss (s : State) : State :=
  let x := linkLossOutputs s.cfg.e s.dec s.field.applied
  let s := withField (fun f => { f with
    dead := true, strobes := 0, stagedFull := false, broke := true, applied := x, loopPins := loopPinsOf f.route x.louts
    gens := f.gens.filter fun g => match x.dio.getD g.1 .off with
      | .freq _ => true
      | _ => false }) s
  noteLinkLoss ((List.range 8).filter fun i => x.louts.getD i .off = .off) s

/-- Inputs, counters, protections and ranging of the field side start afresh, and the logic side sees the link lost: a field-side
reset under R185, and the block reset of the field side (R464). Log 130: DEDUCED. -/
def fieldAfresh (s : State) : State :=
  withField (fun f => pinTags s.cfg.e { f with cells := [], deb := [], ctrReset := [], lsw := [], dioOff := [], demag := [] }) (barrierLoss s)

/-- The converter is out of regulation and the field side resets (R185), its outputs off. -/
def fieldReset (s : State) : State :=
  noteLinkLoss (List.range 8) (withField (fun f => { f with applied := { offOutputs with lamps := f.applied.lamps }, loopPins := [], gens := [] }) (fieldAfresh s))

/-- BARRIER_LINK_LOSS: no strobe for more than 4 ms; where the last window found the converter out of regulation, the field
side resets (R185). -/
def execBarrierLinkLoss (s : State) : Out :=
  ok (when_ (s.field.powered && (!s.field.regulated || !s.field.dead)) (if s.field.regulated then barrierLoss else fieldReset) s)

/-- R13, R17, R81: after 16 strobes and a complete set of staged settings, in the Lull; every routed cell is then a changed cell. -/
def execBarrierLinkRestore (s : State) : Out :=
  ok (when_ (s.field.dead && 16 ≤ s.field.strobes && s.field.stagedFull && 3 ≤ s.time.phase)
    (withField fun f => restartCells s.cfg.e s.tick ((List.range 64).filter fun k => !f.route.unrouted k) { f with dead := false }) s)

/-- R483: 10 000 ticks without a lost sample block. -/
def execBarrierLinkStable (s : State) : Out :=
  let quiet_ := match s.field.lastLost with
    | some t => t + 10000 ≤ s.tick
    | none => true
  ok (when_ quiet_ (delCause (3, 0)) s)

end Sys2Proof.Machine
end

