-- ==== Sys2Proof/Machine/Local.lean ====
section
/-! DEFINITION. Local operator actions (08_squall_engineer_call R235, R250, R251; 14_panels_and_lamps R423): keys, panel
areas and duty selectors, entered in the block of the tick as type 0x05 entries; and a whole tick decided with them. -/

namespace Sys2Proof.Machine

/-- A channel goes from 0 in the tick before to 1 in this one, with DCOND 0 in both (R250). -/
def pressed (b : Block) (cm : Dec) (c : Nat) : Bool :=
  cm.prevOk && cm.lastTick = some (b.tick - 1) && bit b.din c && !bit cm.prevDin c && field b.dcond 2 c = 0
    && field cm.prevDcond 2 c = 0

/-- The action of a key function on a target (R250), with the session word in force. Log 48: DEDUCED. -/
def keyAction (func target word dev input n : Nat) : Option Action :=
  let seen := 65536 * swTier word + 2 ^ 19 * swGen word
  let mk := fun (op tgt arg : Nat) => some
    ({ target := tgt, opcode := op, targetDev := 0xFF, arg := arg, locDev := dev, locInput := input, ord := 0, tick := n } : Action)
  match func with
  | 1 => mk 0x20 (target % 1024) 2
  | 2 => mk 0x21 (target % 64) (2 ^ 23 + seen)
  | 3 => mk 0x21 (target % 64) (2 ^ 24 + seen)
  | 4 => mk 0x21 (target % 64) (2 ^ 24 + 2 ^ 23 + seen)
  | _ => none

/-- The actions a press of channel `c` gives: the key entries, then the areas on it, in entry order (R250, R423). -/
def pressActions (x : Ctx) (n : Nat) (d : Dec) (c : Nat) : List Action :=
  ((x.e.call.keys.filter fun k => k.dev = x.dev && k.chan = c).filterMap fun k =>
      keyAction k.func k.target (d.word (k.target % 64)) x.dev c n)
    ++ (match x.e.panel with
      | some p => p.areas.zipIdx.filterMap fun a =>
          if a.1.chan = c && (a.1.cond = 0 || pageSet x.e d x.dev a.1.panel ≠ []) then
            keyAction a.1.func a.1.target (d.word (a.1.target % 64)) x.dev (32 + a.2) n
          else none
      | none => [])

/-- Enter actions in the block, numbered among the actions of the tick (R45 ORD). -/
def addActions (as : List Action) (b : Block) : Block :=
  let k := (blockActions b).length
  { b with ext := b.ext ++ as.zipIdx.map fun a => .action { a.1 with ord := k + a.2 } }

/-- The block already holds an action of this location and kind: a delayed tick decided again. -/
def hasAction (b : Block) (a : Action) : Bool :=
  b.ext.any fun x => match x with
    | .action c => c.locInput = a.locInput && c.opcode = a.opcode && c.target = a.target
    | _ => false

/-- Channel `c` in a tick, once; `200 + c` marks it done. -/
def keyStep (x : Ctx) (cm : Dec) (z : Block × Work) (c : Nat) : Block × Work :=
  if 200 + c ∈ z.2.preps then z
  else
    let as := if pressed z.1 cm c then (pressActions x z.1.tick z.2.d c).filter fun a => !hasAction z.1 a else []
    (addActions as z.1, { z.2 with preps := (200 + c) :: z.2.preps })

/-- The channels and weights of the duty selector of session `s` on this module (R251). -/
def selEntries (x : Ctx) (s : Nat) : List (Nat × Nat) :=
  (x.e.call.keys.filter fun k => k.dev = x.dev && k.func = 5 && k.target % 64 = s).map fun k => (k.chan, bits k.target 7 6)

/-- The selector of session `s` in a tick, once (R251); `300 + s` marks it done. A session that has none counts no ticks. -/
def selStep (x : Ctx) (z : Block × Work) (s : Nat) : Block × Work :=
  let (b, w) := z
  let ks := selEntries x s
  if 300 + s ∈ w.preps || (ks = [] && (tget {} w.d.sels s).count = 0) then z
  else if ks = [] then (b, { w with d := { w.d with sels := tmod {} w.d.sels s fun q => { q with count := 0 } } })
  else
    let v := ks.foldl (fun a k => if bit b.din k.1 then a ||| 2 ^ k.2 else a) 0
    let q := tget {} w.d.sels s
    let ok := ks.all fun k => field b.dcond 2 k.1 = 0
    let q := if !ok then { q with count := 0 } else if q.count ≠ 0 && q.value = v then { q with count := q.count + 1 }
      else { q with value := v, count := 1 }
    let act := q.count = 250 && q.entered ≠ some v
    let a : Action := { target := s, opcode := 0x26, targetDev := 0, arg := v, locDev := x.dev,
                        locInput := ks.foldl (fun m k => min m k.1) 31, ord := 0, tick := b.tick }
    let w := { w with preps := (300 + s) :: w.preps,
                      d := { w.d with sels := tset {} w.d.sels s (if act then { q with entered := some v } else q) } }
    (if act && !hasAction b a then addActions [a] b else b, w)

/-- The rest of EVALUATE with the local actions of the tick (R193, R250, R251). -/
def finishEval (x : Ctx) (cm : Dec) (z : Block × Work) : Block × Work :=
  let w := evalAll x z.1 cm z.2
  let z := (List.range 32).foldl (keyStep x cm) (z.1, w)
  (List.range 64).foldl (selStep x) z

/-- Points, groups, sessions and local actions of a tick decided, with its events numbered (R193, R223, R227). -/
def finishTick (x : Ctx) (cm : Dec) (z : Block × Work) : Block × Work × List Ev :=
  let (b, w) := finishEval x cm z
  let w := callUpTo x b 64 w
  let evs := number x.e b.catchup w.d.seq (w.evs ++ statusEvs b)
  (b, { w with
        pubDone := true, evs := evs,
        d := { w.d with seq := (w.d.seq + evs.length) % 2 ^ 32, lastTick := some b.tick, prevDin := b.din,
                        prevDcond := b.dcond, prevOk := true } }, evs)

end Sys2Proof.Machine
end

