-- ==== Sys2Proof/Machine/Modes.lean ====
section
/-! DEFINITION. Resets (16_power_reset_modes R460, R461), entering a mode with what that does to outputs, cells and running
measurements (R77, R81, R92, R147, R149, R477, R481), starting to decide (R315, R481), mode requests (R479), and epochs
coming into force (13_configuration_epochs R389, R394). -/

namespace Sys2Proof.Machine

def withDom (f : Dom → Dom) (s : State) : State := { s with dom := f s.dom }
def withSys (f : Sys → Sys) (s : State) : State := { s with sys := f s.sys }
def withEng (f : Eng → Eng) (s : State) : State := { s with eng := f s.eng }

/-- An audit runs, or its repeat awaits the self-test (R272). -/
def State.auditing (s : State) : Bool := s.eng.audit.isSome || s.eng.repeatDue.isSome

/-- Former images are held beside the slots only while an audit needs them (R271). -/
def dropPast (s : State) : State := if s.auditing then s else { s with cfg := { s.cfg with past := [] } }

/-- An audit ends without a verdict (R273), and its command with verdict 3 (R274). Its engine is COLD again, a repeat's too; one
that awaits its self-test goes on to RESYNC (`dropRepeat`). Log 154: DESIGN CHOICE. -/
def abandonAudit (s : State) : State := match s.eng.audit with
  | some a =>
    let s := withEng (fun g => { (if g.of a.b = 3 then g.set a.b 0 else g) with audit := none }) s
    let s := raise 0x8F s.eng.word a.k s
    dropPast (finishOpt a.job 5 3 0 s)
  | none => s

/-- A repeat of an audit that awaits its self-test comes to nothing: the modes of R273 are left, or the engine is reset anew. -/
def dropRepeat (s : State) : State := match s.eng.repeatDue with
  | some a =>
    let s := withEng (fun g => { g with repeatDue := none }) s
    dropPast (finishOpt a.job 5 3 0 (raise 0x8F s.eng.word a.k s))
  | none => s

/-! Reset. -/

/-- What flash keeps of the stores (R20, R372, R373, R468, R472). -/
def Mem.flash (m : Mem) : Mem :=
  { store := m.store, resLog := m.resLog, areas := m.areas, opts := m.opts, images := m.images, override := m.override, retired := m.retired,
    moves := m.moves, worn := m.worn.filter fun w => w.1.inFlash }

/-- What flash keeps of a panel (R416). -/
def Panel.flash (p : Panel) : Panel := { journal := p.journal, images := p.images }

/-- Every domain but the backup domain in reset; flash, host memory, the plant and the supplies keep what they hold. -/
def State.cleared (s : State) : State where
  sys := { role := s.sys.role, variant := s.sys.variant, code := s.sys.code, ratio := s.sys.ratio, guard := s.sys.guard, mode := s.sys.mode,
           prevMode := s.sys.prevMode, rstCause := s.sys.rstCause, rstCrc := s.sys.rstCrc, recoveryOnce := s.sys.recoveryOnce, v33 := s.sys.v33,
           vinA := s.sys.vinA, vinB := s.sys.vinB, presentA := s.sys.presentA, presentB := s.sys.presentB, overA := s.sys.overA,
           overB := s.sys.overB, vbat := s.sys.vbat, perstHigh := s.sys.perstHigh, extLow := s.sys.extLow }
  causes := s.causes.filter fun c => c.1 = 15 || c.1 = 1
  cfg := { slots := s.cfg.slots }
  field := { powered := s.field.powered, applied := offOutputs, staged := offOutputs }
  rec_ := { decim := s.rec_.decim }
  hif := { mem := s.hif.mem }
  mem := s.mem.flash
  panels := s.panels.map Panel.flash
  rtc := s.rtc.moduleReset
  sec := { draws := s.sec.draws + 1 }
  free := s.free
  pending := s.pending

/-- A reset begins with its cause; one that arises in RESET rewrites nothing (R461). In OFF and BACKUP nothing is powered. Once the
heartbeat is lost under set A only RESET_N or a power cycle restarts the module (R460). -/
def beginReset (cause : Nat) (s : State) : State :=
  if s.sys.mode ≤ 3 || (s.sys.hbLost && 4 ≤ cause) then s
  else
    let t := s.cleared
    { t with sys := { setCause cause t.sys with prevMode := s.sys.mode, mode := 3 } }

/-- A reset that a command asked for begins once the records of a survey that it ended are written and no frame waits to leave
(R92, R460). -/
def dueReset (s : State) : State := match s.sys.resetDue with
  | some c => if s.field.surveyEnd.isSome || s.net.held ≠ [] then s else beginReset c (writeArisen s)
  | none => s

/-! Outputs and cells by mode. -/

/-- What is staged for the next edge in a mode that decides nothing (R149, R179, R431, R478). After a power-fail warning the
power-off states stand until field power fails. -/
def stageMode (s : State) : State :=
  let m := s.sys.mode
  if s.sys.powerFail.isSome then s
  else if m = 7 || m = 12 then
    { s with field := { s.field with staged := safeOutputs s.cfg.e ((s.tick + 1) % 2 ^ 48) s.dec, stagedFull := true } }
  else if m ≤ 5 then { s with field := { s.field with staged := offOutputs, stagedFull := true } }
  else s

/-- The pin mask of a SURVEY. -/
def Job.pinMask (j : Job) : Nat := j.cmd.arg1.toNat + 2 ^ 32 * j.cmd.arg2.toNat

/-- Cells that a survey of the pins of a mask affects (R90): an input on one of them, or excited from one. -/
def maskCells (r : Route) (mask : Nat) : List Nat :=
  (List.range 64).filter fun k => !r.unrouted k && (bit mask (r.cellR k).pPin || bit mask (r.cellR k).nPin
    || ((r.cellR k).excSrc < 16 && (r.srcPins 1 (r.cellR k).excSrc).any (bit mask)))

/-- The pins under SURVEY become those of `v` (R79, R90): routes on new ones open, by the break steps, cells, sources with their LOUT
stages, burdens and ties; on the others they close again, and every affected cell is then a changed cell. A field side that holds
its own states (R13) keeps them. -/
def setSurvey (v : BitVec 64) (s : State) : State :=
  withField (fun f =>
    let f := restartCells s.cfg.e s.tick (maskCells f.route (f.survPins &&& ~~~v).toNat)
      { f with survPins := v, survNext := none, broke := f.broke || decide (v &&& ~~~f.survPins ≠ 0) }
    if f.dead then f else { f with applied := f.driven f.applied }) s

/-- What a SURVEY that has begun or ended asks of the crosspoint, in the next Lull (R17). -/
def surveyRoutes (s : State) : State := match s.field.survNext with
  | some v => setSurvey v s
  | none => s

def shedList (e : Epoch) : List Nat := (List.range 64).filter fun k => bit e.mode.shed k

/-- The cells to shed become those given (R81): the ones switched back are changed cells. -/
def setShed (v : BitVec 64) (s : State) : State :=
  withField (fun f => restartCells s.cfg.e s.tick ((List.range 64).filter fun k => f.shed.getLsbD k && !v.getLsbD k)
    { f with shed := v, broke := f.broke || decide (v &&& ~~~f.shed ≠ 0) }) s

/-- Measurements of CONFIGURE end and their routes come back (R88, R92): LEAD_MEASURE completes ABORTED (log 110: DESIGN
CHOICE), and a survey once its finished records are written. -/
def endMeasurements (s : State) : State :=
  let s := match s.field.survey with
    | some j => setSurvey 0 (withField (fun f => { f with surveyEnd := some j }) s)
    | none => s
  let s := match s.field.lead with
    | some j => finishJob j 5 0 0 s
    | none => s
  withField (fun f => { f with survey := none, lead := none, leadV := [], leadOpen := false }) s

/-- Entering SYNC (R305, R312, R313, R481): the level is read, a manager listens, a standalone names S0 at once.
Log 40: DEDUCED. -/
def enterSync (s : State) : State :=
  let lo := (s.mem.images.getD s.mem.running {}).plMin
  let hi := (s.mem.images.getD s.mem.running {}).plMax
  let level := if s.dom.levelSet < lo || hi < s.dom.levelSet then hi else s.dom.levelSet
  withDom (fun d => { d with
    id := d.idNext, serving := false, taking := false, adopted := false, admitted := false, admitTick := none, refused := false, aligned := 0, joinSent := none, complete := 0,
    level := if s.sys.role < 2 && !d.standby then level else d.level
    listen := if s.sys.role = 1 && !d.standby then some s.tick else none
    s0 := if s.sys.role = 0 then some ((s.tick + 16 + 15) / 16 * 16) else none }) s

/-- What leaving a mode for mode `m` ends or starts afresh: measurements (R88, R92), audits (R273), loop counts (R147), and the
cells shed (R81). -/
def leaveMode (m : Nat) (s : State) : State :=
  let was := s.sys.mode
  let s := when_ (was = 7) endMeasurements s
  let s := when_ (8 ≤ was && was ≤ 11 && !(8 ≤ m && m ≤ 11)) (fun s => dropRepeat (abandonAudit s)) s
  let s := when_ (decidesMode was && !decidesMode m) restartLouts s
  let s := when_ (was = 11) (modDec fun d => { d with moOwn := false }) s
  when_ (m = 11 || was = 11) (setShed (if m = 11 then BitVec.ofNat 64 s.cfg.e.mode.shed else 0)) s

/-- Panel A is shed in BLACKOUT and comes back after it (R424). -/
def shedPanel (m was : Nat) (s : State) : State :=
  let s := when_ (m = 11 && (s.panel 0).op.isNone && (s.panel 0).st ≠ 9) (modPanel 0 fun p => { p.lower s.tick with st := 8 }) s
  when_ (was = 11 && (s.panel 0).st = 8) (modPanel 0 fun p => { p with st := 0 }) s

/-- The module enters mode `m` (R477), with what R81, R92, R147, R273 and R424 tie to it. -/
def enterMode (m : Nat) (s : State) : State :=
  if m = s.sys.mode then s
  else stageMode (when_ (m = 8) enterSync (shedPanel m s.sys.mode (setMode m (leaveMode m s))))

/-- Status events of the blocks that were still to be decided late: none will be now, and the next PUBLISH numbers them (R223). -/
def keepStatus (s : State) : State :=
  let late := s.rec_.blocks.takeWhile fun b => match s.dec.lastTick with
    | some t => t < b.tick
    | none => true
  let vs := (late.reverse.filter fun b => !b.test).flatMap fun b => b.ext.filterMap fun x => match x with
    | .status v => some v
    | _ => none
  { s with rec_ := { s.rec_ with waiting := s.rec_.waiting ++ vs } }

/-- SECOND_FAULT and SAFE-HOLD (R256); TEST has no way there in Table: Mode transitions and stays (R481). Log 153: DESIGN CHOICE. -/
def secondFault (case_ tick : Nat) (s : State) : State :=
  let s := raise 0x9F case_ tick (keepStatus s)
  if s.sys.mode = 6 then s else enterMode 12 s

/-! Starting to decide. -/

/-- Checkpoints the working store keeps: the 64 newest, and what an audit or its repeat still needs (R61, R271). -/
def keptCkpts (s : State) : Nat := if s.auditing then 160 else 64

/-- A checkpoint of the state `d` at the end of the tick in progress, with the domain part of a module that serves (R61). -/
def newCkpt (d : Dec) (s : State) : Ckpt :=
  { tick := s.tick, d := d, offset := s.time.offset, epochId := s.epochId, lastId := (s.cfg.old.map Epoch.id).getD 0,
    credits := if s.dom.serving then s.admittedDevs.map fun k => (k, ((s.peer k).s, (s.peer k).ret)) else []
    hist := s.dom.hist, dioOff := s.field.dioOff }

/-- The state of a module that decides its first tick next (R315, R481): every configured point started, tables from
`g` with what R241 ties to the words, and the first checkpoint, of the tick in progress. A point that the first tick finds
unconfigured against the epoch last decided keeps its state until then (R209, R389). Log 38: DEDUCED. -/
def startDeciding (g : Option Gust) (s : State) : State :=
  let prev := if s.cfg.firstDue then s.cfg.old else some s.cfg.e
  let d := startPoints prev s.cfg.e s.dec
  let d := { d with sels := [], prevOk := false, mgroups := [], counters := [], members := [], dgroups := [], sessions := [], moCnt := 0, moBack := 0,
                    louts := d.restartLouts.louts }
  let d := if s.cfg.has then
      { d with sessions := (List.range 64).foldl (fun t i => tset {} t i { duty := (s.cfg.e.sess i).dutyInit }) [] } else d
  let d := match g with
    | some g => (List.range 64).foldl (fun d i => applyWord d i (tget 0 g.sess i)) { d with pub := g.pub, dgrp := g.dgrp }
    | none => d
  let s := { s with dec := d, work := none, cfg := { s.cfg with old := prev }, dom := { s.dom with staleDue := s.dom.staleDue && g.isNone } }
  { s with rec_ := { s.rec_ with
    ckpts := (newCkpt d s :: s.rec_.ckpts).take (keptCkpts s), copyDue := (s.tick + 1) % 65536 = 0 } }

/-! Islands (R24, R57, R305, R481). -/

/-- Remote entries this module's epoch uses (R60): point sources, inhibit sources and watchkeeper arming inputs. -/
def usedRemote (e : Epoch) : List Nat :=
  let l := (e.point.points.filterMap fun x => if x.2.srcKind = 9 then some x.2.srcRef else none)
    ++ (e.point.points.filterMap fun x => if x.2.srcKind ≠ 0 && x.2.inhKind = 2 then some x.2.inhRef else none)
    ++ (e.call.sessions.filterMap fun x => if x.2.enable && x.2.wkEn then some x.2.wkArmRef else none)
  (l.foldl (fun t i => tput t i ()) ([] : Tbl Unit)).map (·.1)

/-- Domain groups whose results this module's epoch uses: lamps of a group (R427). -/
def usedGroups (e : Epoch) : List Nat :=
  (((e.lamps.getD []).filterMap fun l => if l.src = 3 then some l.ref else none).foldl (fun t i => tput t i ()) ([] : Tbl Unit)).map (·.1)

/-- Every remote state used becomes STALE, in the record (R57). -/
def staleExts (e : Epoch) (d : Dec) : List Ext :=
  (usedRemote e).filterMap fun i => if tget 15 d.pub i ≠ 15 then some (.remote i 15) else none

/-- The module becomes an island with a cause of Table: Module status block; its remote states turn STALE in the block still open
to it, else in its next one (R57). A switch announced to it is void (R392). Log 51: DEDUCED. -/
def becomeIsland (cause : Nat) (s : State) : State :=
  let now := s.rec_.block.isSome && s.time.phase = 0
  let s := addCause (13, 0) (withDom (fun d => { d with
    island := true, islandCause := cause, admitted := false, complete := 0, staleDue := !now }) s)
  { s with cfg := { s.cfg with switch := none }, rec_ := { s.rec_ with block := s.rec_.block.map fun b =>
      { b with island := true, ext := b.ext ++ if now then staleExts s.cfg.e s.dec else [] } } }

/-- A worker whose DEV_NUM is outside 2..63 (R24). -/
def State.badDev (s : State) : Bool := s.sys.role = 3 && (s.dom.dev < 2 || 63 < s.dom.dev)

/-- A module in SYNC that was refused, or that does not join (R24), decides on as an island, once it holds domain time and that has
passed its last recorded tick (R29, R315). Log 157: DEDUCED. -/
def leaveRefused (s : State) : State :=
  if s.sys.mode = 8 && (s.dom.refused || s.badDev) && s.dom.island && s.time.domain && s.time.lastRec.all fun l => l < s.tick + 1 then
    enterMode (runMode s) (startDeciding none s)
  else s

/-- The module goes to SYNC; one that does not join is an island there (R24) and, holding domain time, decides on at once. -/
def toSync (s : State) : State :=
  if s.badDev then
    let s := if s.dom.island then s else becomeIsland 0x10 s
    if s.time.domain then enterMode (runMode s) (startDeciding none s) else enterMode 8 s
  else enterMode 8 s

/-! Epochs coming into force (R389, R394). -/

/-- The slots after a switch (R374, R389): the new epoch in 0 and 1, the one in force before it, if any, moved on through 4 to 7. -/
def switchSlots (prev : Option Epoch) (e : Epoch) (l : List (Option Epoch)) : List (Option Epoch) :=
  [some e, some e, l.getD 2 none, l.getD 3 none] ++ (prev.map some).toList ++ ((l.drop 4).take (if prev.isSome then 3 else 4))

/-- Configuration slots are written, each of `n` pages (R368, R374); one that fails with the reserve empty holds no image. -/
def storeSlots (ks : List Nat) (n : Nat) (s : State) : State :=
  ks.foldl (fun s k =>
    let r := program (0x04C00000 + 0x00400000 * k) n s
    { r.2 with cfg := { s.cfg with slots := if r.1 then s.cfg.slots else s.cfg.slots.set k none } }) s

/-- A source differs in its setting or in its pins (R78). -/
def sourceChanged (o e : Route) (kind idx : Nat) : Bool :=
  decide (o.srcPins kind idx ≠ e.srcPins kind idx) || (match kind with
    | 1 => decide (o.iexcCur idx ≠ e.iexcCur idx)
    | 2 => decide (o.vex idx ≠ e.vex idx)
    | 3 => decide (o.bias.getD idx {} ≠ e.bias.getD idx {})
    | _ => false)

/-- A pin's route differs: its entry, or the setting of a source or burden on it (R78). -/
def pinChanged (o e : Route) (n : Nat) : Bool :=
  n < 64 && (decide (o.pin n ≠ e.pin n) || ((e.pin n).srcKind ≠ 0 && sourceChanged o e (e.pin n).srcKind (e.pin n).srcIndex)
    || ((e.pin n).burPresent && decide (o.bur (e.pin n).burIndex ≠ e.bur (e.pin n).burIndex)))

/-- The banks whose CJC sensor a cell measures (R117). -/
def CellSec.banks (c : CellSec) (k : Nat) : List Nat := (List.range c.cjc.length).filter fun b => c.cjc.getD b 0xFF = k

/-- A cell is changed between two images (R78, R117). -/
def changedCell (o e : Epoch) (k : Nat) : Bool :=
  let r := e.route.cellR k
  decide (o.route.cellR k ≠ r) || pinChanged o.route e.route r.pPin || pinChanged o.route e.route r.nPin
    || (r.excSrc < 16 && sourceChanged o.route e.route 1 r.excSrc)
    || decide (o.cell.set k ≠ e.cell.set k) || decide (o.cell.banks k ≠ e.cell.banks k)

/-- The cells that a switch of epochs changes (R78), one that loses its route or its CJC sensor among them; all that are
routed when none was in force. -/
def changedCells (o : Option Epoch) (e : Epoch) : List Nat := match o with
  | none => routedCells e e.route
  | some x => (List.range 64).filter (changedCell x e)

/-- The switches closed on pin `n` (R69). -/
def Route.switches (r : Route) (n : Nat) : List Switch :=
  let p := r.pin n
  (if p.srcKind ≠ 0 then [.source n p.srcKind p.srcIndex] else []) ++ (if p.burPresent then [.burden n p.burIndex p.burLow] else [])
    ++ (if p.gndTie then [.tie n] else [])
    ++ (List.range 64).flatMap fun k => (if (r.cellR k).pPin = n then [.sense n k false] else []) ++ (if (r.cellR k).nPin = n then [.sense n k true] else [])

/-- A pair that failed its readback, with the switches on it that the break from `was` to `now` opened. Log 111: DEDUCED. -/
def stuckAt (was now : Route) (p : Nat × Nat) : Stuck :=
  { a := p.1, b := p.2, sw := (was.switches p.1 ++ was.switches p.2).filter fun w => w ∉ now.switches p.1 ++ now.switches p.2 }

/-- An epoch needs a stuck switch closed again (R80). -/
def Stuck.needed (r : Route) (x : Stuck) : Bool := x.sw.any fun w => w ∈ r.switches x.a ++ r.switches x.b

/-- Outputs at the break step of a switch of epochs (R79, R180): channels that cease to be outputs switch off, and LOUT stages on
changed pins. -/
def breakOutputs (was e : Epoch) (x : Staged) : Staged :=
  { x with
    dio := tab 32 fun c => if (was.chan c).dir = 2 && (e.chan c).dir ≠ 2 then .off else x.dio.getD c .off
    louts := tab 8 fun i => if (was.route.srcPins 5 i).any (pinChanged was.route e.route) then .off else x.louts.getD i .off }

/-- What is staged for the edge at which an epoch takes force: nothing for a channel or a loop output that is no output in it. -/
def keepOutputs (e : Epoch) (x : Staged) : Staged :=
  let on := fun i => (e.lout i).enable && e.route.srcPins 5 i ≠ []
  { x with
    dio := tab 32 fun c => if (e.chan c).dir ≠ 2 then .off else x.dio.getD c .off
    louts := tab 8 fun i => if on i then x.louts.getD i .off else .off
    marks := tab 8 fun i => if on i then { x.marks.getD i {} with placed := true } else {} }

/-- The field side at a switch of epochs, in the Lull of the tick before (R79, R80, R105, R166, R180): outputs as `breakOutputs` has
them, unless the field side holds its own states (R13); changed cells and inputs restart, and a switch stays stuck while the new
epoch needs it closed. -/
def switchField (o : Option Epoch) (e : Epoch) (n : Nat) (f : Field) : Field :=
  let was := o.getD {}
  let chans := (List.range 32).filter fun c => match o with
    | some x => chanChanged x e c
    | none => true
  let f := { f with
    route := e.route
    stuck := f.stuck.filter (Stuck.needed e.route)
    cells := f.cells.map fun x => (x.1, { x.2 with block := none })
    ctrReset := (List.range 8).filter fun c => (was.chan c).countEdge ≠ (e.chan c).countEdge
    chanHold := chans.foldl (fun t c => tset 0 t c (n + 1 + ceilDiv (e.chan c).debounceUs 1000)) f.chanHold
    applied := if f.dead then f.applied else breakOutputs was e f.applied
    staged := keepOutputs e f.staged }
  pinTags e (restartCells e n (changedCells o e) f)

/-- The former images kept: while an audit or its repeat runs, every one in force within the last 1 024 ticks (R271), those that
leave the slots among them. -/
def keepImage (prev : Option Epoch) (s : State) : List Epoch :=
  if s.auditing then s.cfg.past ++ prev.toList ++ (s.cfg.slots.getD 7 none).toList else []

/-- The epoch of the last tick decided, if its image is still held (R389). -/
def heldOld (old : Option Epoch) (slots : List (Option Epoch)) (past : List Epoch) : Option Epoch :=
  old.filter fun e => decide (some e ∈ slots) || decide (e ∈ past)

/-- Readback of a break from the route `was` to `now` (R80): each pair that fails to open is stuck and is reported; XPT_STUCK holds
while any is. -/
def readBack (was now : Route) (stuck : List (Nat × Nat)) (s : State) : State :=
  let s := withField (fun f => { f with stuck := stuck.map (stuckAt was now) ++ f.stuck.filter fun x => (x.a, x.b) ∉ stuck }) s
  let s := stuck.foldl (fun s p => raise 0x82 (p.1 + 256 * p.2) 0 s) s
  if s.field.stuck = [] then delCause (4, 0) s else addCause (4, 0) s

/-- The epoch `e` takes force from the next edge (R79, R80, R106, R389); `stuck` lists the pairs that failed readback. -/
def putInForce (e : Epoch) (stuck : List (Nat × Nat)) (s : State) : State :=
  let prev := if s.cfg.has then some s.cfg.e else none
  let was := s.field.route
  let s := withField (switchField prev e s.tick) s
  let slots := switchSlots prev e s.cfg.slots
  let past := keepImage prev s
  let s := { s with cfg := { s.cfg with
    e := e, has := true, since := (s.tick + 1) % 2 ^ 48, staged := none, switch := none, firstDue := true,
    prevId := s.epochId, old := heldOld (if s.cfg.firstDue then s.cfg.old else prev) slots past, past := past, slots := slots } }
  let s := if s.sys.mode = 11 then setShed (BitVec.ofNat 64 e.mode.shed) s else s
  let s := readBack was e.route stuck s
  let s := withDom (fun d => { d with hist := (d.hist ++ [(e.seq, (s.tick + 1) % 2 ^ 48)]).drop (d.hist.length + 1 - 64) }) s
  refreshPanels (stageMode s)

/-- The epoch switch (R389): it takes force, and flash has it in slots 0 and 1 and the one before it in slot 4 (R374). -/
def switchEpoch (e : Epoch) (stuck : List (Nat × Nat)) (s : State) : State :=
  storeSlots ([0, 1] ++ (if s.cfg.has then [4] else [])) 1024 (putInForce e stuck s)

/-! Mode requests (R479, R481). -/

/-- What a request for `target` does from a mode: none when Table: Mode transitions does not allow it; through RESET
when `.inl`, else the mode entered. `gust` says that it came in the Gust. -/
def modeRequest (mode target : Nat) (gust hasEpoch : Bool) (run : Nat) : Option (Unit ⊕ Nat) :=
  match target with
  | 5 => if mode = 7 || mode = 12 then some (.inl ()) else none
  | 7 => if mode = 5 then some (.inl ()) else if 8 ≤ mode && mode ≤ 12 then some (.inr 7) else none
  | 9 => if mode = 5 then some (.inl ()) else if mode = 7 && hasEpoch then some (.inr 8)
         else if mode = 11 && gust then some (.inr run) else none
  | 11 => if (mode = 9 || mode = 10) && gust then some (.inr 11) else none
  | 12 => if 7 ≤ mode && mode ≤ 11 then some (.inr 12) else none
  | _ => none

/-- One request in record order; answers whether it was permitted. After one that leads through RESET the rest of the
tick's requests are ignored. -/
def requestMode (target : Nat) (gust : Bool) (s : State) : State × Bool :=
  if s.sys.resetDue.isSome then (s, false)
  else
    match modeRequest s.sys.mode target gust s.cfg.has (runMode s) with
    | some (.inl _) => (withSys (fun y => { y with resetDue := some 4, recoveryOnce := decide (target = 5) }) (endMeasurements s), true)
    | some (.inr m) => (if m = 8 then toSync s else enterMode m s, true)
    | none => (s, false)

end Sys2Proof.Machine
end

