-- ==== Sys2Proof/Machine/Engine.lean ====
section
/-! DEFINITION. The Rowan engines (09_redundancy R256 to R274, R519): takeover, catch-up by replay, self-test and resync,
and audit. -/

namespace Sys2Proof.Machine

/-! The queue of R47. -/

/-- Entries a queue takes (R46). -/
def queueCost (q : List QItem) : Nat := (q.map QItem.cost).foldl (· + ·) 0

/-- The oldest items, until `k` entries have left, and the rest. -/
def overflow : Nat → List QItem → List QItem × List QItem
  | _, [] => ([], [])
  | 0, q => ([], q)
  | k + 1, i :: t =>
    let r := overflow (k + 1 - i.cost) t
    (i :: r.1, r.2)

/-- Items joined to the queue; past 262 144 entries the oldest leave with EVT_OVERFLOW (R226). -/
def enqueue (items : List QItem) (s : State) : State :=
  let q := s.view.queue ++ items
  let z := overflow (queueCost q - 262144) q
  let s := z.1.foldl (fun s i => addCause (11, 0) (match i with
    | .ev v => raise 0x85 v.seq 0 s
    | .act _ => raise 0x85 0 1 s)) s
  modDec (fun d => { d with queue := z.2 }) s

/-- A group or call event of a tick that the manager before may have written to its rings (R280): up to M − 1, three ticks before
the first Gust of the standby that took over. -/
def State.dup (s : State) (v : Ev) : Bool := s.dom.tookOver.any fun t => v.tick + 3 ≤ t

/-- An event of this module to its EVT rings. -/
def postOwn (dup : Bool) (s : State) (v : Ev) : State := postEvent v.kind (eventWords s.dom.dev false false dup v) s

/-- The decided events of a tick to the EVT rings of a serving module (R346). With MGR_TAKEOVER, which comes first (R276), go
the events after the role checkpoint: those of the digests held, and this module's own, which the manager may have written in
the tick after their digest (R280). -/
def postTick (evs : List Ev) (s : State) : State :=
  let first := evs.filter fun v => v.kind = 4 && v.cause = 0x90
  match first, s.dom.taken with
  | v :: _, some t =>
    let s := t.host.foldl (fun s h => match h.2.1.item with
      | .ev u => postEvent u.kind (eventWords h.1 h.2.1.queued false h.2.2 u) s
      | .act _ => s) (postOwn false s v)
    let own := (s.mem.store ++ s.mem.page).filter fun u => t.ckpt < u.tick && u.tick < t.tick
    let s := own.foldl (fun s u => postOwn (decide (u.seq ∈ t.written)) s u) s
    (evs.filter fun u => u ≠ v).foldl (fun s u => postOwn (s.dup u) s u) s
  | _, _ => evs.foldl (fun s u => postOwn (s.dup u) s u) s

/-- Decided events leave the module: to its EVT rings, where any is active, and to the event store and the queue (R226, R346,
R371). Those whose SEQ no verified reservation covers have none: they go nowhere, and the next event takes the first such SEQ (R372).
Log 166: DESIGN CHOICE. -/
def emit (evs : List Ev) (acts : List QItem) (s : State) : State :=
  let s := evs.foldl (fun s v => reserveFor v.seq s) s
  let ok := evs.filter fun v => s.mem.covers v.seq
  let s := match evs.find? fun v => !s.mem.covers v.seq with
    | some v => modDec (fun d => { d with seq := v.seq }) s
    | none => s
  let s := postTick ok s
  let s := ok.foldl placeEvent s
  enqueue (ok.map .ev ++ acts) s

/-! Takeover. -/

/-- The block reset of engine `b` that R268 and R272 ask for. A reset that runs already keeps the controller. Log 140: DESIGN
CHOICE. -/
def haltEngine (b : Bool) (s : State) : State :=
  if 1 ≤ s.sys.blkState && s.sys.blkState ≤ 3 then s
  else withSys (fun y => { y with blkCode := 1 + b2n b, blkState := 1, blkForced := false, blkJob := none }) s

/-- The duty engine is block-reset and goes to SELFTEST, and the other takes its place in state `st`; ROWAN_TAKEOVER (R259, R268,
R519). -/
def swapDuty (st : Nat) (s : State) : State :=
  let s := haltEngine s.eng.dutyB (abandonAudit s)
  let s := withEng (fun g => { (g.setDuty 4).setOther st with dutyB := !g.dutyB, takeovers := (g.takeovers + 1) % 256 }) s
  addCause (5, b2n !s.eng.dutyB) (raise 0x88 s.eng.word s.tick s)

/-- The results a Gust carries of decided domain groups (R41). -/
def groupResults (d : Dec) : Tbl Nat := d.dgroups.foldl (fun t g => tset 0 t g.1 (g.2.state % 4)) []

/-- What of the tick in progress is complete when its engine fails (R265). -/
def keptOf (s : State) : Kept := match s.work with
  | some w => { tick := s.tick, dgrp := if w.evalDone then some (groupResults w.d) else none,
                sess := (List.range w.callCursor).map fun i => (i, decidedWord s.eNow w.d i) }
  | none => {}

/-- A takeover starts in the tick in progress (R256, R259, R260), or the change of duty of R519. DW5 of SECOND_FAULT is the tick of
the second fault. Log 153: DESIGN CHOICE. -/
def takeover (s : State) : State :=
  let g := s.eng
  let halt := fun s => withEng (fun g => g.setDuty 4) s
  if s.decides then
    if g.duty = 2 then secondFault 1 s.tick (halt { s with work := none })
    else if !eligible g.other then secondFault 2 s.tick (halt { s with work := none })
    else
      let committed := s.dec.lastTick = some s.tick && s.work.isNone
      let published := match s.work with
        | some w => w.pubDone
        | none => committed
      let kept := keptOf s
      let s := swapDuty 2 s
      { s with
        work := none
        eng := { s.eng with fault := some s.tick, faultCommitted := committed, published := if published then some s.tick else none, kept := kept }
        rec_ := { s.rec_ with block := s.rec_.block.map fun b => { b with catchup := true } } }
  else if eligible g.other then swapDuty 1 s
  else secondFault 2 s.tick (halt s)

/-- ROWAN_TAKEOVER: causes 1 and 2 exist only where ticks are decided (R519). -/
def execRowanTakeover (cause : Fin 4) (s : State) : Out :=
  ok (when_ (6 ≤ s.sys.mode && s.sys.mode ≤ 12 && (s.decides || cause = 0 || cause = 3) && (s.eng.duty = 1 || s.eng.duty = 2)) takeover s)

/-- R35: a phase that has not finished by its window end; a delayed tick decided past its window is none (R262). -/
def execTickOverrun (s : State) : Out :=
  ok (when_ (s.decides && s.time.phase < 3 && s.rec_.block.isSome && s.eng.duty = 1) takeover s)

/-! Replay (R61, R67, R261). -/

/-- The configuration image with an ID, where the module still holds it: in force, last decided in, in a slot, or kept for
an audit. -/
def Cfg.image (c : Cfg) (id : Nat) : Option Epoch :=
  (c.e :: (c.old.toList ++ c.past ++ c.slots.filterMap fun x => x)).find? fun e => e.id = id

/-- The tick an epoch took force at, from the history of R347. -/
def sinceOf (s : State) (e : Epoch) : Nat :=
  if e.id = s.cfg.e.id then s.cfg.since else ((s.dom.hist.find? fun h => h.1 = e.seq).map (·.2)).getD 0

/-- The context of a block: the epoch it names, and the one of the tick decided before it (R67, R393). -/
def blockCtx (s : State) (prev : Option Epoch) (b : Block) : Ctx :=
  let e := (s.cfg.image b.epochId).getD s.cfg.e
  { e := e, since := sinceOf s e, old := prev, dev := s.dom.dev, serving := s.servingAt b.tick }

/-- What the module has of its record, oldest first, the tick in progress last. -/
def Rec.all (r : Rec) : List Block := r.blocks.reverse ++ r.block.toList

/-- What the queue, the schedule and the marks hold is not decided by a replay: it is kept as it stands. -/
def keepBeside (now d : Dec) : Dec :=
  { d with
    queue := now.queue, unconf := now.unconf, ordNext := now.ordNext, moOwn := now.moOwn, scheds := now.scheds,
    marks := now.marks }

/-- One tick decided again from its block: the block with the actions found, the state after the tick with the outputs
decided, and its events. -/
def decideAgain (s : State) (prev : Option Epoch) (d : Dec) (b : Block) : Block × Staged × Dec × List Ev :=
  let x := blockCtx s prev b
  let z := finishTick x d (b, s.startWork b.tick d)
  let o := decideOutputs x b.tick z.2.1.d
  (z.1, o.1, o.2, z.2.2)

/-- The events of a tick as the event store has them. -/
def storedEvs (s : State) (n : Nat) : List Ev := (s.mem.store ++ s.mem.page).filter fun v => v.tick = n

/-- Two lists of events agree but for CATCHUP (R66). -/
def sameEvs (a b : List Ev) : Bool :=
  decide ((a.map fun v => { v with catchup := false }) = b.map fun v => { v with catchup := false })

/-- What a replay carries: the state, the image last decided in, by tick the events and actions to emit, the outputs last
decided, the first tick that differs, and the delayed blocks as they stand after it. -/
structure Replay where
  d : Dec
  prev : Option Epoch := none
  out : List (List Ev × List QItem) := []
  staged : Option Staged := none
  differs : Option Nat := none
  blocks : List Block := []
  /-- Delayed ticks whose page records are due (R420). -/
  pages : List (Nat × Epoch × Dec) := []
  /-- Delayed ticks of which a role checkpoint is sent, with the state after them (R275). -/
  roles : List (Nat × Dec) := []
deriving DecidableEq, Repr

/-- One tick replayed or decided late (R261): before the fault tick, and for a fault tick whose events have left, it
is compared with the event store. -/
def replayTick (s : State) (r : Replay) (b : Block) : Replay :=
  let f := s.eng.fault.getD 0
  let late := f ≤ b.tick
  let b := if late && !(s.eng.faultCommitted && b.tick = f) then { b with catchup := true } else b
  let z := decideAgain s r.prev r.d b
  let left := b.tick < f || s.eng.published = some b.tick
  { d := z.2.2.1, prev := s.cfg.image b.epochId, staged := some z.2.1
    out := if left then r.out else r.out ++ [(z.2.2.2, blockActions z.1)]
    differs := if left && !sameEvs z.2.2.2 (storedEvs s b.tick) && r.differs.isNone then some b.tick else r.differs
    blocks := if late then r.blocks ++ [z.1] else r.blocks
    pages := if late && b.tick % 1000 = 0 then r.pages ++ [(b.tick, (blockCtx s r.prev b).e, z.2.2.1)] else r.pages
    roles := if late && b.tick % 16 = 15 then r.roles ++ [(b.tick, z.2.2.1)] else r.roles }

/-- SEQ of the events to emit, counted on from the highest used when the takeover diverged (R264). -/
def renumber (last : Nat) : List Ev → List Ev
  | [] => []
  | v :: t => { v with seq := (last + 1) % 2 ^ 32 } :: renumber ((last + 1) % 2 ^ 32) t

/-- The results of the delayed ticks leave in tick order (R47, R264). -/
def emitLate (diverged : Bool) (out : List (List Ev × List QItem)) (s : State) : State :=
  out.foldl (fun s o => emit (if diverged then renumber s.mem.lastSeq o.1 else o.1) o.2 s) s

/-- Blocks replaced by those decided late, with the actions that their ticks found (R60). -/
def Rec.rewrite (r : Rec) (bs : List Block) : Rec :=
  let f := fun (b : Block) => (bs.find? fun x => x.tick = b.tick).getD b
  { r with blocks := r.blocks.map f, block := r.block.map f }

/-- The RTC settings of an epoch act in its first tick's Lull, also of one decided late. -/
def lateRtc (bs : List Block) (s : State) : State :=
  if bs.any (·.epochFirst) then applyRtcSection s.cfg.e.mode s else s

/-- The page records of the delayed ticks, in tick order (R424). -/
def latePages (l : List (Nat × Epoch × Dec)) (s : State) : State :=
  l.foldl (fun s x => (List.range 2).foldl (fun s i => composeStep x.2.1 x.2.2 x.1 i s) s) s

/-- The entry marks before the digests of the tick in progress (R275). -/
def marksNow (s : State) : Tbl Marks := if s.dom.closed then s.dom.marksBefore else s.dec.marks

/-- The role checkpoint (R275), with the marks as they were before this tick's digests. -/
def roleCkpt (s : State) : RoleCkpt :=
  { tick := s.tick, members := s.dec.members, dgroups := s.dec.dgroups, sessions := s.dec.sessions, scheds := s.dec.scheds,
    credits := s.admittedDevs.map fun d => (d, ((s.peer d).s, (s.peer d).ret))
    pend := s.dom.pend, utcOffset := s.time.offset, tref := s.time.tref, marks := marksNow s,
    macs := (s.dom.dev, Config.mac) :: s.admittedDevs.map fun d => (d, (s.peer d).mac)
    staged := s.admittedDevs.map fun d => (d, (s.peer d).staged) }

/-- The role checkpoint of a delayed tick, of the state after it (R262, R275). -/
def lateRole (l : List (Nat × Dec)) (s : State) : State :=
  match s.dom.roleDue with
  | some (n, marks) => match l.find? fun x => x.1 = n with
    | some (_, d) =>
      let c := { roleCkpt s with tick := n, members := d.members, dgroups := d.dgroups, sessions := d.sessions, marks := marks }
      sendStream (.role c) (withDom (fun m => { m with roleDue := none }) s)
    | none => s
  | none => s

/-- R261, R264, R266: load, replay, decide the delayed ticks and take duty: at once when the tick in progress is still to be
decided in its window, else from the next edge, with the census of the delayed tick checked in the Lull (R262). A block or
image that the span needs and the module has not stops it. Log 118: DESIGN CHOICE. -/
def catchUp (s : State) : State :=
  let f := s.eng.fault.getD 0
  match s.rec_.ckpts.find? (fun c => c.ok && c.tick < f) with
  | none => secondFault 4 f s
  | some c =>
    let inTime := s.time.phase < 2
    let upto := if inTime then s.tick - 1 else s.tick
    let bs := s.rec_.all.filter fun b => c.tick < b.tick && b.tick ≤ upto
    if (s.rec_.lost.any fun t => c.tick < t && t ≤ upto) || bs.any (fun b => (s.cfg.image b.epochId).isNone) then secondFault 3 f s
    else
      let r := bs.foldl (replayTick s) { d := c.d, prev := s.cfg.image c.lastId }
      let rec_ := s.rec_.rewrite r.blocks
      let s := { s with
        work := none
        dec := keepBeside s.dec r.d
        cfg := { s.cfg with old := r.prev }
        field := { s.field with staged := if s.sys.powerFail.isSome && 3 ≤ s.time.phase then powerOffOutputs s.cfg.e r.d else r.staged.getD s.field.staged }
        rec_ := { rec_ with block := if inTime then rec_.block.map fun b => { b with catchup := false } else rec_.block }
        eng := { (if inTime then s.eng.setDuty 1 else s.eng) with
          fault := none, faultCommitted := false, published := none, censusBad := !inTime && !censusOk s.cfg.e r.d } }
      let s := lateRole r.roles <| latePages r.pages (lateRtc r.blocks (emitLate r.differs.isSome r.out s))
      let s := if r.differs.isSome then { s with dec := { s.dec with seq := (s.mem.lastSeq + 1) % 2 ^ 32 } } else s
      let s := delCauses (fun k => k.1 = 10 && s.rec_.ckpts.all (·.ok)) s
      let s := match r.differs with
        | some t => addCause (9, 0) (raise 0x89 (s.eng.word + 65536 * min (f - t) 65535) 0 s)
        | none => s
      if s.eng.censusBad && 3 ≤ s.time.phase then takeover s else s

def execCatchupComplete (s : State) : Out :=
  ok (when_ (s.decides && s.eng.duty = 2 && s.eng.fault.isSome && s.time.phase < 4) catchUp s)

/-! Replay for comparison (R268, R270). -/

/-- A comparing replay: the state, the image last decided in, the tick due next, the first tick that differs, and whether it
cannot go on. -/
structure Compared where
  d : Dec
  prev : Option Epoch := none
  next : Nat := 0
  differs : Option Nat := none
  stopped : Bool := false
deriving DecidableEq, Repr

/-- The state after tick `n` is the checkpoint of that tick, where there is one (R270). -/
def agreesCkpt (s : State) (n : Nat) (d : Dec) : Bool :=
  (s.rec_.ckpts.filter fun c => c.ok && c.tick = n).all fun c => keepBeside c.d d = c.d

/-- One block of a comparing replay: a block that was lost or has TEST set, and an image no longer held, stop it (R273); a
tick that has no block is a mismatch (R67). Events are compared where `evs` says so, but for CATCHUP, of which a decision
carries no trace (R66). -/
def compareTick (s : State) (evs : Bool) (unsound : Option Nat) (z : Compared) (b : Block) : Compared :=
  if z.stopped || z.differs.isSome then z
  else if b.test || (s.rec_.lost.any fun t => z.next ≤ t && t ≤ b.tick) || (s.cfg.image b.epochId).isNone then { z with stopped := true }
  else if z.next < b.tick then { z with differs := some z.next }
  else
    let r := decideAgain s z.prev z.d b
    let same := (!evs || sameEvs r.2.2.2 (storedEvs s b.tick)) && agreesCkpt s b.tick r.2.2.1 && unsound ≠ some b.tick
    { d := r.2.2.1, prev := s.cfg.image b.epochId, next := b.tick + 1, differs := if same then none else some b.tick }

/-- The replay from checkpoint `c` to tick `k`: none when it cannot be made, else the first tick that differs, if any. -/
def compareSpan (s : State) (evs : Bool) (c : Ckpt) (k : Nat) (unsound : Option Nat) : Option (Option Nat) :=
  let bs := s.rec_.all.filter fun b => c.tick < b.tick && b.tick ≤ k
  let z := bs.foldl (compareTick s evs unsound) { d := c.d, prev := s.cfg.image c.lastId, next := c.tick + 1 }
  if z.stopped then none
  else if z.differs.isNone && z.next ≤ k then (if s.rec_.lost.any fun t => z.next ≤ t && t ≤ k then none else some (some z.next))
  else some z.differs

/-! The halted engine (R268, R272). -/

/-- A job of an audit completes with its verdict and the first differing tick (R274). -/
def auditDone (a : Audit) (verdict t : Nat) (s : State) : State := match a.job with
  | some j => finishJob j j.done verdict (t % 2 ^ 32) s
  | none => s

/-- End of the self-test, which follows the block reset (R268): the repeat of an audit, RESYNC with the next checkpoint written, or FAILED. -/
def execEngineSelftestDone (b pass : Bool) (s : State) : Out :=
  ok (when_ (s.eng.of b = 4 && !s.inReset (1 + b2n b)) (fun s =>
    let rep := s.eng.repeatDue.filter fun a => a.b = b
    if !pass then
      let s := withEng (fun g => { g.set b 6 with repeatDue := if rep.isSome then none else g.repeatDue }) s
      let s := addCause (6, b2n b) (raise 0x8B s.eng.word 0 s)
      match rep with
      | some a => dropPast (auditDone a 1 (a.firstAt.getD 0) s)
      | none => s
    else match rep with
      | some a => withEng (fun g => { g.set b 3 with audit := some { a with repeated := true }, repeatDue := none }) s
      | none => withEng (fun g => { g.set b 5 with resync := tset 0 g.resync (b2n b) ((s.rec_.ckpts.head?.map fun c => c.tick + 1).getD 0) }) s) s)

/-- The checkpoints of a RESYNC (R268): the first written after the self-test, with the one at the end of the 16 ticks after
it, whose span can be replayed. Log 120: DESIGN CHOICE. -/
def resyncPair (s : State) (b : Bool) : Option Ckpt :=
  s.rec_.ckpts.reverse.find? fun c => tget 0 s.eng.resync (b2n b) ≤ c.tick && c.ok
    && (s.rec_.ckpts.any fun x => x.ok && x.tick = c.tick + 16) && (compareSpan s false c (c.tick + 16) none).isSome

/-- End of RESYNC: COLD when the replay agrees, FAILED when not; `sound` says that the engine computes as it must.
ENGINE_RESYNC ends the causes of R483 for the engine. It comes in the Lull in which the second checkpoint is written, or
within 3 ticks of it. -/
def execEngineResync (b sound : Bool) (s : State) : Out :=
  ok (match resyncPair s b with
    | some c => when_ (s.eng.of b = 5 && 3 ≤ s.time.phase && s.tick ≤ c.tick + 19) (fun s =>
      let agrees := sound && compareSpan s false c (c.tick + 16) none = some none
      let s := withEng (fun g => { g.set b (if agrees then 0 else 6) with resync := tset 0 g.resync (b2n b) 0 }) s
      if agrees then delCauses (fun c => (c.1 = 5 || c.1 = 6) && c.2 = b2n b) (raise 0x8A s.eng.word 0 s)
      else addCause (6, b2n b) (raise 0x8B s.eng.word 0 s)) s
    | none => s)

/-! Audits (R270 to R274). -/

/-- Ticks an audit or its repeat goes back from K. -/
def Audit.span (a : Audit) : Nat := if a.repeated then 1008 else 992

/-- An audit starts with the newest valid checkpoint K (R270); without the checkpoint it loads there is nothing to replay. -/
def startAudit (j : Option Job) (s : State) : State :=
  match s.rec_.ckpts.find? (·.ok) with
  | some c =>
    let s := withEng (fun g => { g.setOther 3 with audit := some { b := !g.dutyB, k := c.tick, job := j } }) s
    let bad := s.rec_.blocks.any (fun b => b.test && c.tick < b.tick + 992 && b.tick ≤ c.tick)
      || s.rec_.lost.any fun t => c.tick < t + 992 && t ≤ c.tick
    if bad || !(s.rec_.ckpts.any fun x => x.ok && x.tick + 992 = c.tick) then abandonAudit s else s
  | none => finishOpt j 5 3 0 s

/-- R270, R273: in the Lull of every tick A with A mod AUDIT_PERIOD = AUDIT_PHASE; skipped while an audit runs. -/
def execAuditStart (s : State) : Out :=
  ok (when_ (8 ≤ s.sys.mode && s.sys.mode ≤ 11 && 3 ≤ s.time.phase && s.cfg.has && s.eng.other = 0 && s.eng.audit.isNone
      && s.tick % s.cfg.e.red.auditPeriod = s.cfg.e.red.auditPhase) (startAudit none) s)

/-- AUDIT_PASS: that of the repeat ends a mismatch, and one after a BLOCK_RESET that named the engine ends a dispute (R483). -/
def auditPass (a : Audit) (s : State) : State :=
  let s := withEng (fun g => { g.set a.b 0 with audit := none }) s
  let named := s.eng.named.getD (b2n a.b) false
  let s := delCauses (fun c => ((c.1 = 7 && a.repeated) || (c.1 = 8 && named)) && c.2 = b2n a.b) (raise 0x8C s.eng.word a.k s)
  dropPast (auditDone a 0 0 s)

/-- The replay of audit `a` differs first at tick `t` (R272): a mismatch, with the engine's block reset, its self-test and the repeat to
come; a dispute; or FAILED. -/
def auditDiffers (a : Audit) (t : Nat) (s : State) : State :=
  if !a.repeated then
    let s := withEng (fun g => g.set a.b 6) s
    let s := addCause (7, b2n a.b) (raise 0x8D (s.eng.word + 65536 * ((a.k - t) % 65536)) a.k s)
    haltEngine a.b (withEng (fun g => { g.set a.b 4 with audit := none, repeatDue := some { a with firstAt := some t } }) s)
  else if a.firstAt = some t then
    let s := withEng (fun g => { g.set a.b 7 with audit := none, named := (List.range 2).map fun i => i ≠ b2n a.b && g.named.getD i false }) s
    dropPast (auditDone a 2 t (addCause (8, b2n a.b) (raise 0x8E (s.eng.word + 65536 * ((a.k - t) % 65536)) a.k s)))
  else
    let s := withEng (fun g => { g.set a.b 6 with audit := none }) s
    dropPast (auditDone a 1 t (addCause (6, b2n a.b) (raise 0x8B s.eng.word 0 s)))

/-- R270 to R274: the audit's replay ends, with its verdict or without; `unsound` is the first tick at which the auditing
engine itself computes wrongly. Log 121: DEDUCED. -/
def execAuditEnd (unsound : Option Nat) (s : State) : Out :=
  ok (match s.eng.audit with
    | none => s
    | some a =>
      match s.rec_.ckpts.find? fun c => c.ok && c.tick + a.span = a.k with
      | none => abandonAudit s
      | some c =>
        match compareSpan s true c a.k unsound with
        | none => abandonAudit s
        | some none => auditPass a s
        | some (some t) => auditDiffers a t s)

/-- BLOCK_RESET naming an engine that is not on duty (R274): block reset, then the self-test of R268. -/
def resetEngine (b : Bool) (s : State) : State :=
  let s := if s.eng.of b = 3 then abandonAudit s else if s.eng.repeatDue.any fun a => a.b = b then dropRepeat s else s
  withEng (fun g => { g.set b 4 with named := (List.range 2).map fun i => i = b2n b || g.named.getD i false }) s

end Sys2Proof.Machine
end

