-- ==== Sys2Proof/Machine/Domain.lean ====
section
/-! DEFINITION. Domain membership and the manager's work (02_the_tick R39 to R58, 10_domain_network R306 to R317):
scheduling and placing inputs, completing the Gust, applying a Gust, admission and de-admission, islands. -/

namespace Sys2Proof.Machine

/-! Inputs (R7, R51 to R54, R206, R242, R243). -/

/-- An input keeps Table: Point action arguments, Table: SILENCE and DUTY_SELECT arguments and R479; `follow` says whether a
session has FOLLOW set. One that does not is an invalid item and acts on nothing (R7, R206, R242). -/
def inputOk (follow : Nat → Bool) (g : GustInput) : Bool :=
  let dev := g.targetDev < 64
  match g.opcode with
  | 0x02 => (dev || g.targetDev = 0xFF) && g.target = 0 && g.arg ∈ [5, 7, 9, 11, 12]
  | 0x20 => g.arg ≤ 2 && (dev || (g.targetDev = 0xFF && g.arg = 2)) && g.target < (if g.arg = 1 then 64 else 1024)
  | 0x21 => g.targetDev = 0xFF && g.target < 64 && g.arg < 2 ^ 25 && bits g.arg 24 23 ≠ 0
      && (g.locDev = 0xFF || (!bit g.arg 22 && g.arg % 65536 = 0))
  | 0x22 => dev && g.target < 1024 && g.arg ≠ 0
  | 0x23 => dev && g.target < 1024 && g.arg = 0
  | 0x24 => dev && g.target < 1024 && g.arg = 0
  | 0x25 => dev && g.target < 1024 && g.arg = 0
  | 0x26 => g.targetDev = 0 && g.target < 64 && g.arg < 16 && !follow g.target
  | _ => false

/-- `inputOk` under the epoch in force. -/
def State.inputOk (s : State) (g : GustInput) : Bool := Sys2Proof.Machine.inputOk (fun i => (s.cfg.e.sess i).follow) g

/-- GHIST holds fewer than 8 changes of GEN from tick T_a − 1 on (R243). -/
def silenceFresh (d : Dec) (session ta : Nat) : Bool :=
  ((tget ({} : SessState) d.sessions session).ghist.filter fun t => ta - 1 ≤ t).length < 8

/-- What of an input may be placed, by R243; none when nothing remains. -/
def gateSilence (d : Dec) (ta : Nat) (g : GustInput) : Option GustInput :=
  if g.opcode = 0x21 && bit g.arg 23 && !bit g.arg 22 && !silenceFresh d (g.target % 64) ta then
    if bit g.arg 24 then some { g with arg := g.arg - 2 ^ 23 } else none
  else some g

def addSched (x : Sched) (s : State) : State :=
  modDec (fun d => { d with scheds := d.scheds ++ [{ x with order := d.ordNext }], ordNext := d.ordNext + 1 }) s

/-- The manager holds 256 scheduled inputs (R54). -/
def State.schedsFull (s : State) : Bool := 256 ≤ s.view.scheds.length

/-- Rank of R53 as a list of numbers, compared from the left. -/
def Sched.key (x : Sched) : List Nat :=
  [x.apply, if x.own then 0 else if x.ring.isNone then 1 else 2]
    ++ (match x.ring with
      | some (r, i) => [r, i]
      | none => [x.input.locDev, x.order])

def keyLe : List Nat → List Nat → Bool
  | [], _ => true
  | _ :: _, [] => false
  | a :: s, b :: t => a < b || (a = b && keyLe s t)

def insertSched (x : Sched) : List Sched → List Sched
  | [] => [x]
  | y :: t => if keyLe x.key y.key then x :: y :: t else y :: insertSched x t

def sortScheds (l : List Sched) : List Sched := l.foldr insertSched []

/-! Digests at the cut-off (R45, R48, R518). -/

/-- The entry has already been applied (R518). -/
def Marks.seen (m : Marks) (e : DigestEntry) : Bool :=
  match e.item with
  | .ev v => match m.seq with
    | some q => sub32 q v.seq < 2 ^ 31
    | none => false
  | .act a => match m.act with
    | some (t, o) => a.tick < t || (a.tick = t && a.ord ≤ o)
    | none => false

def Marks.after (m : Marks) (e : DigestEntry) : Marks :=
  match e.item with
  | .ev v => { m with seq := some v.seq }
  | .act a => { m with act := some (a.tick, a.ord) }

/-- The entries not applied before, with the marks after them. -/
def freshEntries (m : Marks) : List DigestEntry → Marks × List DigestEntry
  | [] => (m, [])
  | e :: t => if m.seen e then freshEntries m t else
    let r := freshEntries (m.after e) t
    (r.1, e :: r.2)

/-- The input of an operator action in the digest of tick `n` (R47, R52): after 760 µs the Gust for n + 2 is open. SILENCE goes to
every module and DUTY_SELECT to device 0 (R242). -/
def actionInput (a : Action) (n : Nat) : GustInput :=
  { opcode := a.opcode, targetDev := if a.opcode = 0x21 then 0xFF else if a.opcode = 0x26 then 0 else a.targetDev, target := a.target,
    locDev := a.locDev, locInput := a.locInput, tag := 0, arg := a.arg, reqTick := (n + 3) % 2 ^ 32 }

/-- One operator action of the digest of tick `n` scheduled for the earliest tick open to it (R52, R279), unless it is invalid
(R7, R206) or 256 are held (R54). Log 116: DESIGN CHOICE. -/
def scheduleAction (n : Nat) (a : Action) (s : State) : State :=
  let g := actionInput a n
  if !s.inputOk g || s.schedsFull then s else addSched { apply := max (n + 3) (s.tick + 2), ta := a.tick, input := g } s

/-- Take in one accepted digest of tick `n`: marks, the actions that `want` keeps, and the digest with only its fresh entries. -/
def takeDigestOf (n : Nat) (want : GustInput → Bool) (z : State × List Digest) (x : Digest) : State × List Digest :=
  let (m, es) := freshEntries (tget {} z.1.view.marks x.dev) x.entries
  let s := modDec (fun d => { d with marks := tset {} d.marks x.dev m }) z.1
  let s := es.foldl (fun s e => match e.item with
    | .act a => if want (actionInput a n) then scheduleAction n a s else s
    | .ev _ => s) s
  (s, z.2 ++ [{ x with entries := es }])

/-- Take in one accepted digest of the tick in progress. -/
def takeDigestIn (z : State × List Digest) (x : Digest) : State × List Digest := takeDigestOf z.1.tick (fun _ => true) z x

/-- A digest entry as the rings show it (R347): CATCHUP of its digest, and the EPOCH_SEQ of the epoch in force at its tick. -/
def hostEntry (s : State) (x : Digest) (e : DigestEntry) : DigestEntry :=
  match e.item with
  | .ev v => { e with item := .ev { v with catchup := x.catchup,
                                           epochSeq := s.dom.hist.foldl (fun m h => if h.2 ≤ v.tick then h.1 else m) (if s.dom.hist = [] then s.cfg.e.seq else 0) } }
  | .act _ => e

/-! Admission (R314 to R316). -/

/-- De-admission (R316): books cleared, commands in flight lost, a digest of the tick in progress not taken in; the loss of a
standby manager is STANDBY_LOST (R283). Log 50: DEDUCED. -/
def deadmit (d : Nat) (s : State) : State :=
  let p := s.peer d
  if p.admitAt.isNone then s
  else
    let s := raise 0x9D d 0 s
    let s := (byRing (p.flights.map fun f => (f.origin.place, f))).foldl (fun s f => finish f.origin f.cmd 3 0 0 0 s.tick s) s
    let s := setPeer d { p with admitAt := none, missing := 0, s := 0, ret := 0, flights := [] } s
    let s := withDom (fun m => { m with digests := m.digests.filter fun x => x.dev ≠ d }) s
    if p.role = 2 || p.role = 1 then addCause (14, 0) (raise 0x91 0 0 s) else s

/-- A module on standby duty that was never admitted is gone (R283). -/
def standbyGone (s : State) : State := addCause (14, 0) (raise 0x91 0 0 (withDom (fun d => { d with standbyDev := none }) s))

/-- DEV_LEFT (R316): 64 consecutive digests missing; or, of a module on standby duty, no status frame for 2 000 ticks.
Log 122: DESIGN CHOICE. -/
def execDevLeft (d : Fin 64) (s : State) : Out :=
  ok (when_ s.dom.serving (fun s =>
    if 64 ≤ (s.peer d).missing then deadmit d s
    else if s.dom.standbyDev = some d.val && (s.peer d).statusAt + 2000 ≤ s.tick then standbyGone s else s) s)

/-- A standby manager is present: admitted, or on standby duty (R275, R283). -/
def State.standbyPresent (s : State) : Bool :=
  s.dom.standbyDev.isSome || s.admittedDevs.any fun d => (s.peer d).role = 2 || (s.peer d).role = 1

/-- The device number is taken: a module with it is admitted, or has been told its admission tick (R315). -/
def State.joined (s : State) (d : Nat) : Bool := (s.peer d).admitAt.isSome
def State.joinedDevs (s : State) : List Nat := (List.range 64).filter s.joined

/-- The commit pending, unless it is being cancelled (R392). -/
def Dom.live (d : Dom) : Option Pend := d.pend.filter fun p => p.cancel.isNone

/-- R314: the first cause of refusal that applies, 0 for none. The serving module counts itself: its device number is taken, and
when it is the standby manager, the domain already has one (R3, R25). A module that has its admission tick holds its number
already. Log 139: DEDUCED. -/
def refusal (r : JoinReq) (s : State) : Nat :=
  let inForce := s.epochId
  if r.role = 0 || 3 < r.role || (r.role = 2 && (s.sys.role = 2 || s.joinedDevs.any fun d => (s.peer d).role = 2 && (s.peer d).mac ≠ r.mac)) then 1
  else if (r.role = 3 && (r.dev < 2 || 63 < r.dev)) || (r.role = 2 && r.dev ≠ 1) then 2
  else if (s.joined r.dev && (s.peer r.dev).mac ≠ r.mac) || (r.dev = s.dom.dev && r.mac ≠ Config.mac) then 3
  else if s.dom.level < r.plMin || r.plMax < s.dom.level then 4
  else if (r.epochHeld ≠ inForce && r.epochStaged ≠ inForce)
      || s.dom.live.any (fun p => r.epochStaged ≠ p.id) then 5
  else 0

/-- The device a frame comes from: a refused module, whose SRC_DEV is 0xFE, by the address it was refused under (R295, R317). -/
def State.srcOf (s : State) (h : Hdr) : Nat :=
  if h.src < 64 then h.src
  else ((s.dom.peers.find? fun p => p.2.admitAt.isNone && p.2.refused.isSome && p.2.refusedMac = h.sa).map (·.1)).getD h.src

/-- A Sprinzet frame is one R296 keeps: domain, type and class as the table gives, its length whole, and from an admitted
device, which alone sends under a device number (R295), the domain level. -/
def frameOk (h : Hdr) (type cls : Nat) (s : State) : Bool :=
  h.dom = s.dom.id && h.type = type && h.cls = cls && h.len = h.rx
    && !(h.src < 64 && (s.isAdmitted h.src || s.dom.admitted) && h.level ≠ s.dom.level)

/-- A frame with the HSR sequence number `q` of its source has come to the internal port within EntryForgetTime (R293). -/
def State.repeated (s : State) (h : Hdr) (q : Nat) : Bool := s.net.seen.any fun x => x.1 = (h.sa, q, 2) && s.tick < x.2 + 400

/-- What the internal port keeps of a frame: its sequence number, and its source address for replies. -/
def noteFrame (h : Hdr) (s : State) : State :=
  let s := withDom (fun d => { d with addrs := if h.src < 64 then tset 0 d.addrs h.src h.sa else d.addrs }) s
  match h.hsr with
  | some q => { s with net := { s.net with seen := ((h.sa, q, 2), s.tick) :: s.net.seen.filter fun x => x.1 ≠ (h.sa, q, 2) && s.tick < x.2 + 400 } }
  | none => s

/-- The port learns of its partner from a tagged frame (R311). -/
def heardOn (h : Hdr) (s : State) : State := when_ h.hsr.isSome (hearPartner (h.port % 2)) s

/-- `f`, once ticks run, on a frame that R296 keeps and that is no duplicate; both copies of a Gust segment go on (R304). An over-long
frame and a discarded one are counted on their port (R291, R311). -/
def onFrame (h : Hdr) (type cls : Nat) (f : State → State) (s : State) : State :=
  if !s.phys then s
  else
  let s := heardOn h s
  let p := s.port (h.port % 2)
  if 1488 < h.rx then setPort (h.port % 2) { p with discLong := min (p.discLong + 1) 0xFFFFFFFF } s
  else if !frameOk h type cls s then setPort (h.port % 2) { p with discSpz := min (p.discSpz + 1) 0xFFFFFFFF } s
  else if !s.ticking || (type ≠ 1 && h.hsr.any (s.repeated h)) then s
  else f (noteFrame h s)

/-- A domain of more than one module: a standalone module sends no Gust, admits nobody and takes no digests (R2, R26). -/
def State.domain (s : State) : Bool := s.dom.serving && s.sys.role ≠ 0

/-- One join request decided (R314, R316): refused with the first cause that applies, or admitted from A on. The marks of R518
stay with the MAC address. -/
def decideJoin (s : State) (r : JoinReq) : State :=
  let s := if s.isAdmitted r.dev && (s.peer r.dev).mac = r.mac then deadmit r.dev s else s
  let c := refusal r s
  if c ≠ 0 then
    let s := raise 0x9B (c + 256 * (r.dev % 256) + 65536 * r.plMin) r.plMax s
    let s := setPeer r.dev { s.peer r.dev with refused := some s.tick, refusedFor := c, refusedMac := r.mac } s
    send (.joinResponse r.mac { result := c, dev := r.dev, level := s.dom.level, admitAt := 0, epochId := 0 }) s
  else
    let a := (s.tick + 32 + 15) / 16 * 16
    let p := s.peer r.dev
    let s := modDec (fun d => { d with
      marks := if (tget ({} : Marks) d.marks r.dev).mac = r.mac then d.marks else tset {} d.marks r.dev { mac := r.mac } }) s
    let s := setPeer r.dev { mac := r.mac, role := r.role, admitAt := some a, status := p.status, statusAt := p.statusAt, staged := p.staged } s
    let s := raise 0x9C r.dev a s
    let s := if r.role = 2 || r.role = 1 then delCause (14, 0) s else s
    send (.joinResponse r.mac { result := 0, dev := r.dev, level := s.dom.level, admitAt := a, epochId := match s.dom.live with
        | some p => if p.apply ≤ a then p.id else s.epochId
        | none => s.epochId }) s

/-- The join requests of the tick, in the order they came, in its Lull (R314). -/
def decideJoins (s : State) : State := s.dom.joins.foldl decideJoin (withDom (fun d => { d with joins := [] }) s)

/-- JOIN_REQUEST (R314): decided in the Lull of the tick in which it is decoded. -/
def execJoinRequest (h : Hdr) (r : JoinReq) (s : State) : Out :=
  ok (onFrame h 5 1 (fun s =>
    if !s.domain then s
    else if s.time.phase < 3 then withDom (fun d => { d with joins := d.joins ++ [r] }) s
    else decideJoin s r) s)

/-! The Gust completed at the cut-off (R41, R48 to R53, R278, R388, R392). -/

/-- Published states in a Gust from accepted digests (R39, R49). -/
def gustPub (ds : List Digest) : Tbl Nat :=
  ds.foldl (fun t x => x.pub.foldl (fun t y => tset 15 t (128 * x.dev + y.1) y.2) t) []

/-- The results and words a Gust carries: of the tick in progress when it is decided, else those of the Gust before but for
what of a fault tick was complete (R265). The first Gust of a standby carries those last heard (R277). -/
def gustResults (s : State) : Tbl Nat × Tbl Nat :=
  if s.decides && s.servingAt s.tick && s.dec.lastTick = some s.tick then
    (groupResults s.dec, (List.range 64).foldl (fun t i => tset 0 t i (decidedWord s.eNow s.dec i)) [])
  else
    let old := match s.dom.gustOut, s.dom.heard with
      | some g, _ => (g.dgrp, g.sess)
      | none, g :: _ => (g.dgrp, g.sess)
      | none, [] => (s.dec.dgrp, s.dec.sess)
    let k := s.eng.kept
    if s.dom.serving && k.tick = s.tick then (k.dgrp.getD old.1, k.sess.foldl (fun t x => tset 0 t x.1 x.2) old.2) else old

/-- The Gust for N + 1 from the digests accepted and the inputs placed. Log 28: DEDUCED. -/
def makeGust (ds : List Digest) (rx : Nat) (ins : List Sched) (s : State) : Gust :=
  let n := s.tick
  let r := gustResults s
  let live := s.dom.pend.filter fun p => p.cancel.all fun c => n < c.from_
  let switching : Bool := match live with
    | some p => p.apply ≤ n + 2
    | none => false
  { tick := (n + 1) % 2 ^ 48, fromStandby := s.dom.fromStandby, pending := live.isSome && !switching,
    epochId := (match live with
      | some p => if switching then p.id else s.epochId
      | none => s.epochId),
    pendApply := (match live with
      | some p => if switching then 0 else p.apply
      | none => 0),
    pendId := (match live with
      | some p => if switching then 0 else p.id
      | none => 0),
    digestRx := rx, pub := gustPub ds, dgrp := r.1, sess := r.2, inputs := ins.map (·.input) }

/-- What the block of the tick gains at the cut-off: the inputs placed and a commit first announced or cancelled (R60).
Log 30: DEDUCED. -/
def cutoffExts (ins : List Sched) (s : State) : List Ext :=
  ins.map (fun x => .placed x.input) ++ (match s.dom.pend with
    | some p => match p.cancel.filter fun c => c.from_ ≤ s.tick with
      | some c => [.epoch true c.tag p.id p.apply]
      | none => if p.announced then [] else [.epoch false p.tag p.id p.apply]
    | none => [])

/-- The first `k` of the inputs due that may be placed, those that R243 drops before them, and the rest (R53, R243). -/
def placeUpTo (d : Dec) : Nat → List Sched → List Sched × List Sched × List Sched
  | _, [] => ([], [], [])
  | 0, l => ([], [], l)
  | k + 1, x :: t =>
    match gateSilence d x.ta x.input with
    | some g => let r := placeUpTo d k t; ({ x with input := g } :: r.1, r.2.1, r.2.2)
    | none => let r := placeUpTo d (k + 1) t; (r.1, x :: r.2.1, r.2.2)

/-- A silence that R243 drops: the next block shows it with the device it came from, whose PERM_REFUSED its decision raises.
Log 123: DEDUCED. -/
def dropSilence (s : State) (x : Sched) : State :=
  let g := x.input
  let a : Action := { target := g.target, opcode := g.opcode, targetDev := g.targetDev, arg := g.arg, locDev := g.locDev, locInput := g.locInput,
                      ord := 0, tick := x.ta }
  withDom (fun d => { d with dropped := d.dropped ++ [(if g.locDev < 64 then g.locDev else d.dev, a)] }) s

/-- What becomes of a command that was submitted to the manager before, as the standby knows it from then on (R282). -/
def Sched.known (status used : Nat) (x : Sched) : JournalCmd :=
  { ring := (x.ring.getD (0, 0)).1, index := (x.ring.getD (0, 0)).2, tag := x.input.tag, op := x.input.opcode, dev := x.dev, apply := x.apply,
    status := status, used := used }

/-- The ring commands of such silences complete ABORTED, by ring and index (R341); one that was submitted to the manager before is
known to have. -/
def abortSilences (l : List Sched) (s : State) : State :=
  let s := withDom (fun d => { d with known := ((l.filter (·.orphan)).map fun x => (s.tick, x.known 5 s.tick)) ++ d.known }) s
  (byRing (l.filterMap fun x => if x.orphan then none else x.ring.map fun o => (o, x))).foldl (fun s x =>
    complete (.ring (x.ring.getD (0, 0)).1 (x.ring.getD (0, 0)).2) x.apply x.input.tag x.input.opcode x.dev 5 0 0 0 s.tick s) s

/-- The manager closes reception and completes the Gust for the next tick (R48 to R53); `rx` are the devices whose DIGEST_RX bit
it may set, and `d` the committed state that R243 asks. Log 27: DEDUCED. -/
def closeReception (rx : Nat → Bool) (d : Dec) (s : State) : State :=
  let n := s.tick
  let s := withDom (fun d => { d with marksBefore := s.view.marks }) s
  let z := (s.dom.own.toList ++ s.dom.digests).foldl takeDigestIn (s, [])
  let s := z.1
  let got := z.2.map (·.dev)
  let miss := s.admittedDevs.filter fun d => d ≠ s.dom.dev && d ∉ got
  let s := s.admittedDevs.foldl (fun s d =>
    setPeer d { s.peer d with missing := if d ∈ miss then (s.peer d).missing + 1 else 0 } s) s
  let due := placeUpTo d 8 (sortScheds (s.view.scheds.filter fun x => x.apply ≤ n + 2))
  let ins := due.1
  let rest := due.2.2.map fun x => if x.ring.isSome then { x with late := true } else x
  let s := modDec (fun d => { d with scheds := rest ++ d.scheds.filter fun x => n + 2 < x.apply }) s
  let s := abortSilences due.2.1 (due.2.1.foldl dropSilence s)
  let exts := cutoffExts ins s
  let g := makeGust z.2 (devMask (got.filter rx)) ins s
  { s with
    rec_ := { s.rec_ with block := s.rec_.block.map fun b => { b with ext := b.ext ++ exts } }
    dom := { s.dom with
      gustNext := some g, placed := ins, digestsPrev := z.2, digests := [], missed := miss, closed := true,
      pend := s.dom.pend.map fun p => { p with announced := true } } }

def cutoff (s : State) : State := closeReception (fun _ => true) s.dec s

/-- A digest of tick `n` beside those of the 64 ticks before, which a standby keeps (R275). -/
def snoop (n : Nat) (x : Digest) (l : List (Nat × Digest)) : List (Nat × Digest) := (l.filter fun y => n < y.1 + 64) ++ [(n, x)]

/-- DIGEST_RECEIVE (R48, R296): at a serving module accepted for the tick in progress when it names its tick and the
epoch in force; at a standby kept for the roll-forward (R275). -/
def execDigestReceive (h : Hdr) (payload : List Byte) (s : State) : Out :=
  ok (onFrame h 2 0 (fun s =>
    let x := decDigest payload
    let accepted := s.time.phase < 4 && !s.dom.closed && x.tick = s.tick && x.epochId = s.epochNow && x.dev = h.src
    if !accepted then s
    else if s.domain then
      if s.isAdmitted x.dev && x.dev ≠ s.dom.dev && !(s.dom.digests.any fun y => y.dev = x.dev) then
        let s := withDom (fun d => { d with digests := (d.digests.filter fun y => y.dev < x.dev) ++ [x] ++ d.digests.filter fun y => x.dev < y.dev }) s
        let p := s.peer x.dev
        setPeer x.dev { p with ret := x.creditRet, flights := p.flights.map fun f =>
          if f.covered.isNone && (x.creditRet + 256 - f.cseq) % 256 < 128 then { f with covered := some s.tick } else f } s
      else s
    else if s.dom.standby || s.sys.role = 2 then
      withDom (fun d => { d with snooped := snoop s.tick x d.snooped }) s
    else s) s)

/-! Islands (R57, R481). -/

/-- R57: the 9th tick of holdover; a standby that held no complete role checkpoint has its own cause (R276). -/
def execIslandEntry (s : State) : Out :=
  ok (when_ (s.decides && !s.dom.serving && !s.dom.island && 9 ≤ s.dom.absent && s.time.phase = 0)
    (fun s => becomeIsland (if s.sys.role = 2 && s.dom.role.isNone then 0x13 else 0x11) s) s)

/-- R481: 16 consecutive complete Gusts take an island to SYNC, unless it was refused. -/
def execIslandRejoin (s : State) : Out :=
  ok (when_ (s.sys.mode = 10 && !s.sys.hbLost && s.dom.island && !s.dom.refused && 16 ≤ s.dom.complete && s.dom.islandCause ≠ 0x10) toSync s)

/-! Joining (R312, R315). -/

/-- What the module says of itself in a join request. -/
def joinReq (s : State) : JoinReq :=
  let i := s.mem.images.getD s.mem.running {}
  { mac := Config.mac, role := s.sys.role, dev := s.dom.dev, plMin := i.plMin, plMax := i.plMax, hwStep := Config.sysStep,
    fwVer := i.version, ucVer := s.mem.uc.version, epochHeld := s.epochId,
    epochStaged := (s.cfg.staged.map Epoch.id).getD 0,
    caps := b2n (s.panel 0).rails + 2 * b2n s.sys.boostB + 4 * b2n (s.net.ports.any (·.interlink)) }

/-- Aligned and unanswered in SYNC every 100 ticks; refused as an island every 10 000 ticks. A strapped manager sends none. -/
def execJoinRequestSend (s : State) : Out :=
  let wait := if s.dom.refused then 10000 else 100
  let due := match s.dom.joinSent with
    | some t => t + wait ≤ s.tick
    | none => true
  let can := (s.sys.mode = 8 && 64 ≤ s.dom.aligned) || (s.dom.island && s.dom.refused)
  ok (when_ (s.sys.role ≥ 2 && !s.dom.serving && s.dom.admitTick.isNone && s.dom.islandCause ≠ 0x10 && can && due) (fun s =>
    send (.joinRequest (joinReq s)) (withDom (fun d => { d with joinSent := some s.tick }) s)) s)

/-- R315: ADMIT_TICK, or a refusal, after which the module runs as an island. -/
def execJoinResponse (h : Hdr) (r : JoinResp) (s : State) : Out :=
  ok (onFrame h 6 1 (fun s =>
    if s.dom.serving || s.sys.role < 2 || r.dev ≠ s.dom.dev then s
    else if r.result = 0 then
      withDom (fun d => { d with admitTick := some r.admitAt, admitEpoch := r.epochId, refused := false, level := r.level }) s
    else leaveRefused (becomeIsland r.result (withDom (fun d => { d with refused := true, joinSent := some s.tick }) s))) s)

/-- R315, R390: in the Lull of A − 1, tables from the Gust for A − 1, a staged epoch that is in force switched in (as that Gust
names it, else the join response), and the first checkpoint (its readback is EPOCH_SWITCH's); the module decides A in RUN or RUN-DEGRADED. In CONFIGURE it is admitted and stays (R481). Where
A is not beyond the last recorded tick, the module stays in SYNC until it is passed (R29). -/
def execAdmissionTick (s : State) : Out :=
  ok (when_ ((s.dom.admitTick.any fun a => a ≤ s.tick + 1) && (s.time.lastRec.all fun l => l < s.tick + 1) && 3 ≤ s.time.phase && !s.dom.admitted && (s.sys.mode = 8 || s.sys.mode = 7 || (s.sys.mode = 10 && s.dom.island))) (fun s =>
    let want := (s.dom.gustNow.map (·.epochId)).getD s.dom.admitEpoch
    let s := match s.cfg.staged with
      | some e => if e.id = want && s.epochId ≠ want then switchEpoch e [] s else s
      | none => s
    let s := withDom (fun d => { d with
      admitted := true, admShadow := none, island := false, islandCause := 0, absent := 0, cseqNext := 1, creditRet := 0,
      doneFrames := [], admitTick := none, admittedAt := some ((s.tick + 1) % 2 ^ 48) }) s
    let s := delCause (13, 0) s
    if s.sys.mode = 7 then s else enterMode (runMode s) (startDeciding s.dom.gustNow s)) s)

/-! Serving (R481). -/

/-- R283, R481: nothing served for 200 ticks; S0 is the smallest multiple of 16 at least 16 ticks on. -/
def execManagerListenEnd (s : State) : Out :=
  let due := match s.dom.listen with
    | some t => t + 200 ≤ s.tick
    | none => false
  ok (when_ (s.sys.mode = 8 && s.sys.role = 1 && !s.dom.standby && s.dom.s0.isNone && due)
    (withDom fun d => { d with listen := none, s0 := some ((s.tick + 16 + 15) / 16 * 16) }) s)

/-- A module that starts to serve restores the UTC offset from its newest checkpoint (R493). -/
def restoreOffset (s : State) : State := match s.rec_.ckpts.find? (·.ok) with
  | some c => { s with time := { s.time with offset := c.offset, off := s.time.off.put (tc 64 c.offset) } }
  | none => s

/-- R481: in the Lull of S0 − 1, points started and the first checkpoint written; RUN and service from S0. -/
def execServingStart (s : State) : Out :=
  ok (when_ (s.sys.mode = 8 && s.dom.s0 = some (s.tick + 1) && 3 ≤ s.time.phase) (fun s =>
    let s := withDom (fun d => { d with serving := true, s0 := none, peers := [], fromStandby := false, tookOver := none, taken := none }) s
    enterMode (runMode s) (startDeciding none (restoreOffset s))) s)

/-! Mode requests and BLACKOUT (R479, R484). -/

/-- A job that is a mode request to this module. -/
def isModeJob (s : State) (j : Job) : Bool := j.cmd.op = 0x02 && j.start ≤ s.tick

/-- A mode request of the Gust (R479). The BLACKOUT it enters is the module's own, left by R484, when the request was its own. -/
def requestGust (s : State) (g : GustInput) : State :=
  let t := (requestMode (g.arg % 16) true s).1
  if s.sys.mode ≠ 11 && t.sys.mode = 11 then modDec (fun d => { d with moOwn := g.locDev ≠ 0xFF && g.locInput = 0xFE }) t else t

/-- In the Lull of A: the requests of the tick in record order, those of the Gust first; direct ones complete. A request
through RESET resets at the end (R460 cause COMMAND), after the finished records of a survey it ends are written (R92). Log 77: DEDUCED. -/
def execModeReqApply (s : State) : Out :=
  ok (when_ (s.ticking && 3 ≤ s.time.phase) (fun s =>
    let gs := s.dom.inputs.filter fun g => g.opcode = 0x02
    let s := withDom (fun d => { d with inputs := d.inputs.filter fun g => g.opcode ≠ 0x02 }) s
    let s := gs.foldl requestGust s
    let js := s.hif.jobs.filter (isModeJob s)
    let s := { s with hif := { s.hif with jobs := s.hif.jobs.filter fun j => !isModeJob s j } }
    let s := js.foldl (fun s j => leaveFrame j s) s
    let z := js.foldl (fun (x : State × List ((Nat × Nat) × (State → State))) j =>
      let r := requestMode (j.cmd.arg1.toNat % 16) false x.1
      (r.1, x.2 ++ [(j.origin.place, finishJob j (if r.2 then j.done else 6) (if r.2 then (if r.1.sys.resetDue.isSome then 3 else r.1.sys.mode) else 0) 0)]))
      (s, [])
    dueReset ((byRing z.2).foldl (fun s f => f s) z.1)) s)

/-- The request of R484, in the earliest Gust still open; it waits while 256 inputs are held (R54). -/
def placeBlackout (target : Nat) (own : Bool) (s : State) : State :=
  if s.schedsFull then s
  else
  let s := modDec (fun d => { d with moOwn := own }) s
  addSched { apply := s.earliest, own := true,
             input := { opcode := 0x02, targetDev := 0xFF, target := 0, locDev := s.dom.dev, locInput := 0xFE, tag := 0, arg := target,
                        reqTick := s.earliest % 2 ^ 32 } } s

def execBlackoutRequest (s : State) : Out :=
  ok (when_ (s.dom.serving && s.decides && s.cfg.e.mode.boMains && s.sys.mode ≠ 11 && !s.view.moOwn
    && s.cfg.e.mode.boDelay ≤ s.view.moCnt) (placeBlackout 11 true) s)

def execBlackoutExitRequest (s : State) : Out :=
  ok (when_ (s.dom.serving && s.cfg.e.mode.boMains && s.sys.mode = 11 && s.view.moOwn
    && s.cfg.e.mode.boExit ≤ s.view.moBack) (placeBlackout 9 false) s)

/-! Epoch switch (R388 to R390). -/

/-- In the Lull of A − 1 a module whose staged image is the announced epoch switches; one that has another does not. Where
admission or a start has already put the epoch in force for the next tick, what is left is the readback of its switches. -/
def execEpochSwitch (stuck : List (Fin 64 × Fin 64)) (s : State) : Out :=
  let pairs := stuck.map fun p => (p.1.val, p.2.val)
  let pend := match s.dom.pend with
    | some p => if s.master && p.announced && p.cancel.isNone then some (p.id, p.apply) else none
    | none => none
  let due := match (if pend.isSome then pend else s.cfg.switch), s.cfg.staged with
    | some (id, a), some e => if a = s.tick + 1 && e.id = id then some e else none
    | _, _ => none
  ok (when_ (3 ≤ s.time.phase && s.ticking) (fun s =>
    match due with
    | some e => withDom (fun d => { d with pend := none, done := if d.pend.isSome then d.pend else d.done }) (switchEpoch e pairs s)
    | none => if s.cfg.has && s.cfg.since = (s.tick + 1) % 2 ^ 48 then readBack ((s.cfg.old.map (·.route)).getD {}) s.field.route pairs s else s) s)

end Sys2Proof.Machine
end

