-- ==== Sys2Proof/Machine/Gust.lean ====
section
/-! DEFINITION. Receiving the Gust (02_the_tick R40, R50, R58; 10_domain_network R297, R304, R305), yielding (R284), and
the standby manager (09_redundancy R275 to R283). -/

namespace Sys2Proof.Machine

/-! Alignment (R304, R305). -/

/-- The mean link delay filtered over the last 8 results (R302): their plain mean, rounded down. Log 158: DESIGN CHOICE. -/
def meanDelay (p : Port) : Nat := if p.delays = [] then 0 else p.delays.foldl (· + ·) 0 / p.delays.length

/-- θ in ns from segment 0's time block, the local time and the port's mean link delay (R297, R304). -/
def thetaOf (seg0 : List Byte) (localNs : Int) (p : Port) : Int :=
  localNs - ((u64 seg0 0 : Nat) + divr (s64 seg0 8) 65536 + (meanDelay p : Nat))

/-- The consecutive counts of R305 after one Gust with offset θ. -/
def alignCounts (th : Int) (d : Dom) : Dom :=
  { d with
    theta := th
    aligned := if th.natAbs ≤ 250 then d.aligned + 1 else 0
    thetaGood := if th.natAbs ≤ 1000 then d.thetaGood + 1 else 0
    thetaBad := if 1000 < th.natAbs then d.thetaBad + 1 else 0
    thetaFar := if 20000 < th.natAbs then d.thetaFar + 1 else 0 }

/-- R305: 16 Gusts beyond 1 µs raise TIME_ALIGN; beyond 20 µs the module becomes an island and rejoins in SYNC; 64 Gusts
within 1 µs end the condition. -/
def execTimeAlign (s : State) : Out :=
  ok (when_ (s.decides && !s.dom.serving && !s.dom.island) (fun s =>
    if 16 ≤ s.dom.thetaFar then enterMode 8 (becomeIsland 0x12 s)
    else if 16 ≤ s.dom.thetaBad && (12, 0) ∉ s.causes then addCause (12, 0) (raise 0x99 (tc 32 s.dom.theta) 0 s)
    else if 64 ≤ s.dom.thetaGood then delCause (12, 0) s else s) s)

/-! A complete Gust. -/

/-- The queue after a Gust that reports on the digest of the tick before it (R50, R278): that digest is confirmed when the
module's bit is set; every other digest sent before goes back to the head of the queue. Log 33: DEDUCED. -/
def confirmQueue (dev : Nat) (g : Gust) (d : Dec) : Dec :=
  let before := d.unconf.filter fun u => u.1 < g.tick
  let back := before.filter fun u => !(u.1 + 1 = g.tick && bit g.digestRx dev)
  { d with queue := (back.map (·.2)).flatten ++ d.queue, unconf := d.unconf.filter fun u => g.tick ≤ u.1 }

/-- The epoch the module will have in force at the tick a Gust of the tick in progress applies to (R390); a Gust that cancels
the announced switch leaves the one in force (R392). Log 34: DEDUCED. -/
def expectedEpoch (g : Gust) (s : State) : Nat :=
  match s.cfg.switch with
  | some (id, a) => if a ≤ s.tick + 1 && (s.cfg.staged.map Epoch.id) = some id && g.epochId = id then id else s.epochId
  | none => s.epochId

/-- An announcement or its cancellation taken from a Gust (R389, R392); not on a module that was refused (R317). -/
def takeAnnouncement (g : Gust) (s : State) : State :=
  if s.dom.refused then s
  else
  let sw := if g.pending then some (g.pendId, g.pendApply)
    else match s.cfg.switch with
      | some (id, a) => if g.epochId ≠ id then none else some (id, a)
      | none => none
  { s with cfg := { s.cfg with switch := sw } }

/-- A tick shifted by `d`, where 0 stands for none. -/
def shiftTick (d : Int) (t : Nat) : Nat := if t = 0 then 0 else (max 1 (t + d)).toNat

/-- The field side's running times: they go on from where they are when the count steps (R172). -/
def Field.retime (d : Int) (f : Field) : Field :=
  let tbl := fun (t : Tbl Nat) => t.map fun x => (x.1, shiftTick d x.2)
  let job := fun (j : Job) => { j with start := shiftTick d j.start }
  { f with
    chanHold := tbl f.chanHold, dioOff := tbl f.dioOff, lampOff := tbl f.lampOff
    cells := f.cells.map fun x => (x.1, { x.2 with settle := shiftTick d x.2.settle })
    lsw := f.lsw.map fun x => (x.1, { x.2 with openAt := x.2.openAt.map (shiftTick d) })
    lampTests := f.lampTests.map fun t => (shiftTick d t.1, t.2.1, job t.2.2)
    lostTicks := f.lostTicks.map (shiftTick d), lastLost := f.lastLost.map (shiftTick d)
    survey := f.survey.map job, surveyEnd := f.surveyEnd.map job, lead := f.lead.map job }

/-- A port's running times, of which the token bucket's are in µs and the last frame's in ns. -/
def Port.retime (d : Int) (p : Port) : Port :=
  { p with upAt := p.upAt.map (shiftTick d), downAt := p.downAt.map (shiftTick d), testAt := p.testAt.map (shiftTick d), pdelayAt := p.pdelayAt.map (shiftTick d)
           tokAt := shiftTick (1000 * d) p.tokAt, busyTo := shiftTick (1000000 * d) p.busyTo }

def Net.retime (d : Int) (y : Net) : Net :=
  let at_ := fun (o : Option Nat) => o.map (shiftTick d)
  { y with
    ports := y.ports.map (Port.retime d), nodes := y.nodes.map fun x => (x.1, shiftTick d x.2), seen := y.seen.map fun x => (x.1, shiftTick d x.2)
    lastSync := at_ y.lastSync, syncAt := at_ y.syncAt, announceAt := at_ y.announceAt, supAt := at_ y.supAt }

def Panel.retime (d : Int) (p : Panel) : Panel :=
  let at_ := fun (o : Option Nat) => o.map (shiftTick d)
  { p with frameAt := at_ p.frameAt, railAt := at_ p.railAt, railFail := at_ p.railFail, railDown := at_ p.railDown, endTick := shiftTick d p.endTick }

/-- The times that run by the count, when SYNC steps it by `d`: none of them starts afresh or ends by the step (R172, R305). Log 156:
DEDUCED. -/
def retime (d : Int) (s : State) : State :=
  { s with
    sys := { s.sys with powerFail := s.sys.powerFail.map (shiftTick d) }
    field := s.field.retime d, net := s.net.retime d, panels := s.panels.map (Panel.retime d)
    mem := { s.mem with
      pageAt := s.mem.pageAt.map (shiftTick d), scrubAt := s.mem.scrubAt.map fun x => (x.1, shiftTick d x.2)
      chans := s.mem.chans.map fun c => (c.1, { c.2 with bulk := c.2.bulk.map fun b => { b with sent := shiftTick d b.sent } }) }
    hif := { s.hif with rings := s.hif.rings.map fun r => (r.1, { r.2 with firstAt := r.2.firstAt.map (shiftTick d) }) }
    dom := { s.dom with listen := s.dom.listen.map (shiftTick d), joinSent := s.dom.joinSent.map (shiftTick d), statusSent := s.dom.statusSent.map (shiftTick d) } }

/-- R29, R305: a module in SYNC adopts the tick of its first complete Gust there, and holds domain time from then on; in any other
mode, and afterwards, its count never steps. -/
def adoptTick (n : Nat) (s : State) : State :=
  if s.sys.mode = 8 && !s.dom.adopted then
    let s := retime ((n : Int) - s.tick) s
    { s with time := { s.time with num := n, domain := true }, dom := { s.dom with adopted := true } }
  else s

/-- R284: whether this serving module yields to another's Gust. -/
def yields (s : State) (src : Nat) (g : Gust) : Bool :=
  match s.dom.gustOut with
  | some own =>
    let a := popcount 64 own.digestRx
    let b := popcount 64 g.digestRx
    decide (a < b) || (a = b && decide (src < s.dom.dev))
  | none => false

/-- Standby duty (R283, R284): no Gust, no listening, and the standby cause of R483 ends. -/
def standbyDuty (s : State) : State :=
  delCause (14, 0) (withDom (fun d => { d with standby := true, serving := false, listen := none, s0 := none })
    { s with hif := { s.hif with rings := s.hif.rings.map fun x => (x.1, { x.2 with active := false }) } })

/-- The module keeps what a takeover of the manager role needs: the standby manager, or a module on standby duty (R275, R283). -/
def State.follows (s : State) : Bool := !s.dom.serving && (s.sys.role = 2 || s.dom.standby)

/-- A complete Gust of the tick in progress on a module that does not serve. -/
def takeGust (src : Nat) (g : Gust) (s : State) : State :=
  let s := if s.sys.mode = 8 && s.sys.role = 1 && !s.dom.standby && g.fromStandby then standbyDuty s else s
  let s := adoptTick g.tick s
  if g.tick ≠ s.tick then s
  else
    let known := s.dom.admitted || s.dom.admitTick.isSome
    let s := withDom (fun d => { d with complete := d.complete + 1, gustMiss := 0 }) s
    let joining := s.dom.admitTick = some (s.tick + 1) && (s.cfg.staged.map Epoch.id) = some g.epochId
    if known && g.epochId ≠ expectedEpoch g s && !joining then s
    else
      let s := takeAnnouncement g s
      let s := withDom (fun d => { d with
        gustNow := some g, srcNow := src, taking := false, heard := if s.follows then (g :: d.heard).take 64 else [] }) s
      modDec (confirmQueue s.dom.dev g) s

/-- Segment `k` as port `p` brought it. -/
def segOf (segs : List ((Nat × Nat) × List Byte)) (p k : Nat) : Option (List Byte) := (segs.find? fun x => x.1 = (p, k)).map (·.2)

/-- The payload of a complete Gust: four segments, of either port. -/
def gustPayload (segs : List ((Nat × Nat) × List Byte)) : Option (List Byte) :=
  let any := fun (k : Nat) => match segOf segs 0 k with
    | some b => some b
    | none => segOf segs 1 k
  match any 0, any 1, any 2, any 3 with
  | some a, some b, some c, some d => some (a.drop 16 ++ b ++ c ++ d)
  | _, _, _, _ => none

/-- The port whose copy of segment 0 gives θ (R304): E0 when that copy is complete, else E1. Of a Gust whose segment 0 only E0 brought,
E0. -/
def thetaPort (segs : List ((Nat × Nat) × List Byte)) : Nat :=
  if (List.range 4).all (fun k => (segOf segs 0 k).isSome) || (segOf segs 1 0).isNone then 0 else 1

/-- GUST_SEGMENT (R40, R296, R297): a segment of the tick in progress, until 760 µs; with the fourth the Gust is complete. A
standalone module is a domain of one and takes none (R2). -/
def execGustSegment (h : Hdr) (payload : List Byte) (localNs : Int) (s : State) : Out :=
  ok (onFrame h 1 0 (fun s =>
    let fixed := s.sys.mode ≠ 8 || s.dom.adopted
    if s.sys.role = 0 || (fixed && h.tick ≠ s.tick) || s.dom.gustClosed || payload.length ≠ (if h.seg = 0 then 1178 else 1162) || 3 < h.seg then s
    else
      let old := if s.dom.segTick = some h.tick then s.dom.segs else []
      let had := (gustPayload old).isSome
      let segs := (old.filter fun x => x.1 ≠ (h.port, h.seg)) ++ [((h.port, h.seg), payload)]
      let s := withDom (fun d => { d with
        segs := segs, segTick := some h.tick
        offsets := if h.seg = 0 then tset 0 d.offsets h.port (thetaOf payload localNs (s.port h.port)) else d.offsets }) s
      if had then s
      else match gustPayload segs with
        | some body =>
          let g := decGust body
          if g.tick ≠ h.tick then s
          else if s.dom.serving then
            if h.src ≠ s.dom.dev && yields s h.src g then enterMode 8 (standbyDuty (raise 0x92 0 0 s)) else s
          else takeGust h.src g s
        | none => s) s)

/-- θ of the complete Gust of the tick, once its segments are in (R304, R305): a copy from E0 that completes after that from E1
counts. A module that serves measures none. -/
def align (s : State) : State :=
  match gustPayload s.dom.segs with
  | some body => when_ (!s.dom.serving && s.dom.segTick = some (decGust body).tick)
      (withDom fun d => alignCounts (tget 0 d.offsets (thetaPort d.segs)) d) s
  | none => s

/-- GUST_DEADLINE (R40, R56): at 760 µs θ is measured, and a module without the complete Gust counts it absent. -/
def execGustDeadline (s : State) : Out :=
  ok (when_ (s.ticking && s.time.domain && !s.dom.gustClosed) (fun s =>
    let s := align s
    let absent := s.dom.gustNow.isNone && !s.dom.serving
    withDom (fun d => { d with
      gustClosed := true
      complete := if absent && (gustPayload d.segs).isNone then 0 else d.complete
      gustMiss := if absent then d.gustMiss + 1 else 0 }) s) s)

/-! The standby manager (R275 to R282). -/

/-- The manager stream as the standby keeps it: the newest role checkpoint and the journal from its tick on. -/
def execManagerStream (h : Hdr) (x : Stream) (s : State) : Out :=
  ok (onFrame h 8 2 (fun s =>
    if !s.follows then s
    else match x with
      | .role c => withDom (fun d => { d with role := some c, journal := d.journal.filter fun j => c.tick ≤ j.tick }) s
      | .journal j => withDom (fun d => { d with
          journal := d.journal ++ [j]
          known := (j.cmds.reverse.map fun c => (j.tick, c)) ++ d.known.filter fun x => s.tick < x.1 + 65536 }) s) s)

/-- The digests of tick `n` held for the roll-forward, by device: those snooped, this module's own, and the manager's from the
journal (R277). -/
def heldDigests (s : State) (n : Nat) : List Digest :=
  let all := (s.dom.journal.filterMap fun j => if j.tick = n then j.digest else none)
    ++ (s.dom.snooped.filterMap fun x => if x.1 = n then some x.2 else none)
  (List.range 64).filterMap fun d => all.find? fun g => g.dev = d

/-- The Gust of tick `n`, if this module heard it. -/
def heardGust (s : State) (n : Nat) : Option Gust := s.dom.heard.find? fun g => g.tick = n

/-- The inputs of the Gust of tick `n` that the manager before is taken to have sent, `last` being the last of them (R277, R279).
Log 125: DEDUCED. -/
def sentInputs (s : State) (last n : Nat) : List GustInput :=
  match heardGust s n with
  | some g => g.inputs
  | none => if n ≤ last then (s.dom.journal.filter fun j => j.tick + 1 = n).flatMap (·.inputs) else []

/-- The epoch of a rolled tick, and the one before it where it is the first (R253). -/
def rollEpoch (s : State) (n : Nat) : Epoch × Option Epoch :=
  let before := s.cfg.image s.cfg.prevId
  if s.cfg.since ≤ n then (s.cfg.e, before) else (before.getD s.cfg.e, none)

/-- What the roll-forward carries: the decision state with the marks, the states that Squall takes, the events of domain groups
and sessions, and the digest events with the tick of their digest. -/
structure Roll where
  d : Dec
  pub : Tbl Nat := []
  evs : List Ev := []
  host : List (Nat × Nat × DigestEntry) := []
deriving DecidableEq, Repr

/-- The entries of held digests not applied before, with the marks after them (R278, R518). -/
def freshDigests (d : Dec) (gs : List Digest) : Dec × List Digest :=
  gs.foldl (fun z g =>
    let (m, es) := freshEntries (tget {} z.1.marks g.dev) g.entries
    ({ z.1 with marks := tset {} z.1.marks g.dev m }, z.2 ++ [{ g with entries := es }])) (d, [])

/-- One tick of the roll-forward (R277): the words, inputs and states that the Gust of the tick before brought, or, where it was
never sent, the states of the digests of two ticks before; the digests of the tick before; the epoch rule on the sessions;
domain groups and sessions. `last` is the tick of the last Gust sent. -/
def rollTick (s : State) (devs : List Nat) (last : Nat) (r : Roll) (n : Nat) : Roll :=
  let ep := rollEpoch s n
  let x : Ctx := { e := ep.1, old := ep.2, dev := s.dom.dev }
  let z := freshDigests r.d (heldDigests s (n - 1))
  let exts := (z.2.map fun g => g.entries.map fun e => Ext.digestEntry g.dev e).flatten
    ++ ((devs.filter fun d => !(z.2.any fun g => g.dev = d)).map Ext.digestMissing)
  let d := match heardGust s (n - 1) with
    | some g => (List.range 64).foldl (fun d i => applyWord d i (tget 0 g.sess i)) z.1
    | none => z.1
  let pub := match heardGust s (n - 1) with
    | some g => g.pub
    | none => if n ≤ last + 1 then r.pub else gustPub (heldDigests s (n - 2))
  let w : Work := { d := d, begun := true, arm := some pub }
  let w := if s.cfg.since = n then
      let w := epochSessions x.old x.e w
      { w with d := { w.d with members := w.d.members.filter fun m => x.e.groups.any fun g => g.dpid = m.1 } }
    else w
  let w := ((sentInputs s last (n - 1)).filter fun g => g.opcode = 0x21 || g.opcode = 0x26).foldl (fun w g => applyInput x n w (.input g)) w
  let w := evalDomainGroups x.e { tick := n, ext := exts } w
  let w := callUpTo x { tick := n } 64 w
  { d := w.d, pub := pub, evs := r.evs ++ w.evs,
    host := r.host ++ (z.2.filter fun g => g.dev ≠ s.dom.dev).flatMap fun g => g.entries.map fun e => (n - 1, g.dev, hostEntry s g e) }

/-- SEQ of this module's own events that the manager may have written by tick `last` (R280): those of a digest of a tick before it,
unless a Gust heard says that it did not accept that digest. -/
def writtenSeqs (s : State) (last : Nat) : List Nat :=
  (s.dom.snooped.filter fun x => x.2.dev = s.dom.dev && x.1 < last && (heardGust s (x.1 + 1)).all fun g => bit g.digestRx s.dom.dev).flatMap fun x =>
    x.2.entries.filterMap fun e => match e.item with
      | .ev v => some v.seq
      | .act _ => none

/-- The manager role rolled forward to the beginning of tick `n`, in which the standby begins to serve (R277, R280): from the
states and words of the last Gust heard up to C; events the manager may have written up to its last Gust carry DUP, a
worker's being written in the tick after its digest. An event of which the journal holds the original is not raised a
second time. -/
def rollRole (c : RoleCkpt) (n : Nat) (s : State) : Taken :=
  let last := n - 3
  let base := { s.dec with members := c.members, dgroups := c.dgroups, sessions := c.sessions, marks := c.marks }
  let start := match s.dom.heard.find? fun g => g.tick ≤ c.tick with
    | some g => { d := (List.range 64).foldl (fun d i => applyWord d i (tget 0 g.sess i)) base, pub := g.pub }
    | none => ({ d := base } : Roll)
  let r := ((List.range (n - 1 - c.tick)).map fun i => c.tick + 1 + i).foldl (rollTick s (c.macs.map (·.1)) last) start
  let host := r.host.filterMap fun h => match h.2.2.item with
    | .ev v => if c.tick < v.tick then some (h.2.1, h.2.2, decide ((if h.2.1 = s.dom.srcNow then v.tick else h.1 + 1) ≤ last)) else none
    | .act _ => none
  let held := fun (v : Ev) => host.any fun h => match h.2.1.item with
    | .ev u => h.1 = s.dom.srcNow && u.kind = v.kind && u.point = v.point && u.tick = v.tick && u.cause = v.cause && u.new = v.new
    | .act _ => false
  { tick := n, ckpt := c.tick, members := r.d.members, dgroups := r.d.dgroups, sessions := r.d.sessions,
    evs := r.evs.filter (fun v => !held v), arm := gustPub (heldDigests s (n - 2)), host := host,
    written := writtenSeqs s last }

/-! Taking the manager role (R276 to R280, R282, R283). -/

/-- The newest commit the journal names, else the checkpoint's: the tick it was decoded in, and its entry. -/
def lastCommit (s : State) (c : RoleCkpt) : Option (Nat × JournalCmd) :=
  match s.dom.known.find? fun x => x.2.op = 0x11 with
  | some x => some x
  | none => match c.pend with
    | some p => p.origin.map fun o =>
      (p.start, { ring := o.1, index := o.2, tag := p.tag, op := 0x11, dev := 0, apply := p.apply, status := 5, used := p.start })
    | none => none

/-- What the journal shows of that commit once the manager is lost (R282): switched, it has completed on the devices the
checkpoint counts; announced, it stands pending; otherwise it is ABORTED. -/
def settleCommit (c : RoleCkpt) (s : State) : List (Nat × JournalCmd) :=
  match lastCommit s c with
  | some (t, x) =>
    if x.status = 5 && s.cfg.switch.isNone then
      [(s.tick, if t < s.cfg.since then
          { x with status := okLate (x.apply ≠ 0 && x.apply ≠ s.cfg.since), used := s.cfg.since, a := s.epochId % 2 ^ 32, b := c.macs.length }
        else x)]
    else []
  | none => []

/-- T_a of a local action that stands planned (R243): the tick of the entry of a held digest that it came from. Of an input for
which neither a held digest nor a known command gives it, T_a is the tick of the first journal frame that plans the input. Log 125:
DEDUCED. -/
def heldAction (s : State) (g : GustInput) : Nat :=
  let held := (s.dom.journal.filterMap fun j => j.digest.map fun x => (j.tick, x)) ++ s.dom.snooped
  (held.findSome? fun x => x.2.entries.findSome? fun e => match e.item with
    | .act a => if actionInput a x.1 = g then some a.tick else none
    | .ev _ => none).getD (((s.dom.journal.find? fun j => g ∈ j.inputs).map (·.tick)).getD s.tick)

/-- A planned input of the journal as a scheduled one; one that came from a ring waits for its command (R279, R282). -/
def plannedSched (s : State) (g : GustInput) : Sched :=
  let x := if g.locDev = 0xFF then s.dom.known.find? fun x => x.2.tag = g.tag && x.2.op = g.opcode else none
  { apply := s.tick + 2, late := g.locDev = 0xFF, orphan := g.locDev = 0xFF, ring := x.map fun x => (x.2.ring, x.2.index),
    ta := (x.map (·.1)).getD (heldAction s g), dev := (x.map fun x => x.2.dev).getD (if g.targetDev < 64 then g.targetDev else 0), input := g }

/-- The inputs that the first Gust and those after it still have to place (R279): what the checkpoint holds scheduled or the
journal shows as planned, but for those that the manager sent. A ring command whose Gust was never sent is late. -/
def takenScheds (c : RoleCkpt) (sent : List GustInput) (s : State) : List Sched :=
  let planned := ((s.dom.journal.filter fun j => s.tick ≤ j.tick + 2).flatMap (·.inputs)).map (plannedSched s)
  let keep := (c.scheds.filter fun x => x.input ∉ sent && !(planned.any fun y => y.input = x.input)).map fun x =>
    { x with apply := max x.apply (s.tick + 2), late := x.late || (x.ring.isSome && x.apply < s.tick + 2), orphan := x.ring.isSome }
  keep ++ planned

/-- A module on standby duty in SYNC decides from the next tick on, in the domain's epoch (R283, R390). -/
def leaveSync (s : State) : State :=
  if s.sys.mode ≠ 8 then s
  else
    let s := match s.cfg.staged, s.dom.heard with
      | some e, g :: _ => if e.id = g.epochId && s.epochId ≠ g.epochId then switchEpoch e [] s else s
      | _, _ => s
    enterMode (runMode s) (startDeciding s.dom.heard.head? s)

/-- The commit that a switch announced to the standby stands for: the role checkpoint's, where it is the same, with no command
to complete until the host names it again (R282, R393). -/
def takenPend (c : RoleCkpt) (s : State) (w : Nat × Nat) : Pend :=
  match c.pend.filter fun p => p.id = w.1 && p.apply = w.2 with
  | some p => { p with announced := true, origin := none, cancel := none }
  | none => { id := w.1, apply := w.2, announced := true, tag := ((lastCommit s c).map fun x => x.2.tag).getD 0 }

/-- The first Gust of a standby, in the Lull of M + 1 (R276 to R279): the manager's devices, books, inputs and marks, the
digests from the checkpoint on, and a Gust whose DIGEST_RX names the devices heard in all three ticks. Log 54: DEDUCED. -/
def firstCutoff (c : RoleCkpt) (s : State) : State :=
  let n := s.tick
  let s := leaveSync s
  let ticks := (List.range (n - c.tick)).map fun i => c.tick + i
  let sent := ticks.flatMap fun t => sentInputs s (n - 2) (t + 1)
  let commit := settleCommit c s
  let s := { s with time := { s.time with offNext := some c.utcOffset, trefNext := some c.tref } }
  let s := withDom (fun d => { d with
    fromStandby := true, known := commit ++ d.known, cmds := []
    peers := (c.macs.filter fun x => x.1 ≠ d.dev).map fun x =>
      (x.1, { mac := x.2, role := if x.1 ≤ 1 then 0 else 3, admitAt := some 0, s := (tget (0, 0) c.credits x.1).1,
              ret := (tget (0, 0) c.credits x.1).2, staged := tget 0 c.staged x.1 })
    pend := s.cfg.switch.map (takenPend c s) }) s
  let scheds := takenScheds c sent s
  let s := modDec (fun d => { d with marks := c.marks, scheds := scheds }) s
  let want := fun g => g ∉ sent && !(scheds.any fun x => x.input = g)
  let s := ticks.foldl (fun s t => ((heldDigests s t).foldl (takeDigestOf t want) (s, [])).1) s
  let now := heldDigests s n
  let s := withDom (fun d => { d with own := now.find? fun g => g.dev = d.dev, digests := now.filter fun g => g.dev ≠ d.dev }) s
  closeReception (fun d => [n - 1, n - 2].all fun t => (heldDigests s t).any fun g => g.dev = d)
    { s.dec with sessions := (rollRole c (n + 1) s).sessions } s

/-- DIGEST_CUTOFF (R48): reception closes; the serving module, or the standby that takes over, completes the next Gust; then the
second unprotected window opens (R300), with which a reset that waited for its frames begins. Once the heartbeat is lost only the
window is left (R460). -/
def execDigestCutoff (s : State) : Out :=
  if !s.ticking then ok (when_ (s.switching && s.time.phase = 1) (fun s => releaseHeld 905 985 { s with time := { s.time with phase := 4 } }) s)
  else ok (when_ (3 ≤ s.time.phase && !s.dom.closed) (fun s =>
    let s := { s with time := { s.time with phase := 4 } }
    dueReset (releaseHeld 905 985 (match s.dom.taking, s.dom.role with
    | true, some c => firstCutoff c s
    | _, _ => if s.master && 7 ≤ s.sys.mode then cutoff s else withDom (fun d => { d with closed := true }) s))) s)

/-- The module may take the role: it decides as the admitted standby, or stands by in SYNC, aligned and with the epoch of the
domain (R276, R283). -/
def State.canTake (s : State) : Bool :=
  s.follows && !s.dom.taking && ((s.decides && s.dom.admitted && !s.dom.island)
    || (s.sys.mode = 8 && s.dom.standby && 64 ≤ s.dom.aligned && (match s.dom.heard with
      | g :: _ => s.epochId = g.epochId || (s.cfg.staged.map Epoch.id) = some g.epochId
      | [] => false)))

/-- MANAGER_LOST (R276): the Gusts of two consecutive ticks absent at 760 µs. The standby completes its first Gust in this
Lull, at its cut-off; without a complete role checkpoint it goes on as a worker. -/
def execManagerLost (s : State) : Out :=
  ok (match s.dom.role with
    | some c => when_ (s.canTake && 2 ≤ s.dom.gustMiss && 3 ≤ s.time.phase)
        (fun s => (fun s => if s.dom.closed then firstCutoff c s else s) (withDom (fun d => { d with taking := true }) s)) s
    | none => s)

/-- The edge of M + 2, at which the standby begins to serve (R276 to R278): the role rolled forward for this tick, the rings
active, the test of the time reference begun (R303), MGR_TAKEOVER, and its own unconfirmed digests back in its queue. -/
def assumeRole (n : Nat) (s : State) : State :=
  match s.dom.taking, s.dom.role, s.dom.gustNext with
  | true, some c, some g =>
    let t := rollRole c n s
    let s := { s with hif := { s.hif with rings := s.hif.rings.map fun x => (x.1, { x.2 with active := x.2.enable }) } }
    let s := withDom (fun d => { d with
      serving := true, standby := false, taking := false, tookOver := some n, taken := some t, gustMiss := 0, admitted := false }) s
    let s := { s with time := { s.time with refValid := false, refCount := 0 }, net := { s.net with lastSync := none } }
    addCause (14, 0) (raise 0x90 (c.tick % 2 ^ 32) 0 (modDec (confirmQueue s.dom.dev g) s))
  | _, _, _ => s

end Sys2Proof.Machine
end

