-- ==== Sys2Proof/Machine/Net.lean ====
section
/-! DEFINITION. Ports, switch, HSR and time references (10_domain_network R289 to R293, R299, R300, R302, R303, R310,
R311; 09_redundancy R286; 02_the_tick R30). -/

namespace Sys2Proof.Machine

/-! DOM_TREF fields (R495). -/

def State.ref (s : State) : Nat := s.time.tref.toNat % 4
def State.ptpMaster (s : State) : Bool := s.time.tref.getLsbD 2 && s.ref ≠ 1
def State.ptpDomain (s : State) : Nat := bits s.time.tref.toNat 14 8

/-- The offset goes on by `ms` in one step (R31); a first write that the host holds stays held (R8). -/
def stepOffset (ms : Int) (s : State) : State :=
  { s with time := { s.time with offset := s.time.offset + ms, off := s.time.off.put (tc 64 (s.time.offset + ms)) } }

/-- R30: a phase difference of more than 1 s against a valid reference goes into TICK_UTC_OFFSET in one step, but not in a
tick in which a host pair takes effect (R493). -/
def timeStep (diffMs : Int) (s : State) : State :=
  if s.master && s.ref ≠ 0 && s.time.refValid && 1000 < diffMs.natAbs && s.time.offTick ≠ some s.tick then
    raise 0x97 (tc 32 diffMs) 0 (stepOffset diffMs s)
  else s

/-- Pulses of the reference in a row that keep their spacing (Table: Time references). -/
def countRef (good : Bool) (s : State) : State :=
  { s with time := { s.time with refCount := if good then s.time.refCount + 1 else 0 } }

/-- The count the validity test of a reference asks for. Log 57: DEDUCED. -/
def refNeed (ref : Nat) : Nat := [0, 8, 4, 16].getD ref 0

/-- A gate of the module's time reference is void when that reference comes or goes (R447). -/
def voidRefGate (s : State) : State := withRtc (fun r => if r.measSrc = s.ref then { r with gate := false } else r) s

/-- TIME_REF_CHANGE (R303): lost, or regained once the test of the reference has passed; a trim gate by it is void (R447). -/
def execTimeRefChange (valid : Bool) (s : State) : Out :=
  ok (when_ (s.master && s.ref ≠ 0 && s.time.refValid != valid && (!valid || refNeed s.ref ≤ s.time.refCount)) (fun s =>
    raise 0x98 (s.ref - 1) (b2n valid) (voidRefGate
      { s with time := { s.time with refValid := valid, refCount := if valid then s.time.refCount else 0 } })) s)

/-- The port takes frames of the ring. -/
def State.takesRing (s : State) (p : Nat) : Bool := (s.port p).link && (s.port p).ring

/-- A Sync with HSR sequence number `q` of its source goes on once in a direction (R293), its correction grown by residence and link
delay (R302). -/
def passSync (port src q : Nat) (c : Int) (s : State) : State :=
  let key := (src, q, 1 - port)
  if (s.net.seen.any fun x => x.1 = key && s.tick < x.2 + 400) || !s.takesRing (1 - port) then s
  else
    let s := { s with net := { s.net with correction := c, seen := (key, s.tick) :: s.net.seen.filter fun x => x.1 ≠ key && s.tick < x.2 + 400 } }
    transmit (.forward (1 - port) q (some c)) s

/-- PTP_SYNC_RECEIVE (R293, R302): the transparent clock sends a Sync on, but for its own; the serving module counts a Sync of its
selected master, once of its copies, afresh after an interval that brought none, and follows PTP time less currentUtcOffset.
Log 141: DESIGN CHOICE. -/
def execPtpSyncReceive (port : Fin 2) (x : SyncHop) (domain : BitVec 8) (master : Nat) (offsetNs : Int) (s : State) : Out :=
  ok (when_ (s.ticking && (s.port port).link && x.src ≠ Config.mac) (fun s =>
    let s := passSync port x.src x.seq.toNat (x.pass.leaves (meanDelay (s.port port))) s
    let key := (x.src, x.seq.toNat, 2)
    let dup := s.net.seen.any fun x => x.1 = key && s.tick < x.2 + 400
    let s := if dup then s else { s with net := { s.net with seen := (key, s.tick) :: s.net.seen.filter fun x => x.1 ≠ key && s.tick < x.2 + 400 } }
    let mine := !dup && s.master && s.ref = 1 && domain.toNat = s.ptpDomain && (match s.net.bestMaster with
      | some (_, m) => m = master
      | none => false)
    if mine then
      let inRow := s.net.lastSync.all fun t => s.tick < t + 250
      let s := { s with net := { s.net with syncCount := s.net.syncCount + 1, lastSync := some s.tick } }
      timeStep (divr offsetNs 1000000 - 1000 * s.net.utcOffset) (countRef true (if inRow then s else countRef false s))
    else s) s)

/-- PTP_ANNOUNCE_RECEIVE (R302): the best master clock algorithm keeps the better data set. A change of the selected master's
currentUtcOffset is a leap second: UTC steps against the tick number (R31). Log 129: DEDUCED. -/
def execPtpAnnounceReceive (port : Fin 2) (domain : BitVec 8) (dataset master : Nat) (utcOffset : Int) (s : State) : Out :=
  ok (when_ (s.ticking && (s.port port).link && s.master && s.ref = 1 && domain.toNat = s.ptpDomain) (fun s =>
    match s.net.bestMaster with
    | some (d, m) =>
      if m = master then
        let step := 1000 * (s.net.utcOffset - utcOffset)
        let s := { s with net := { s.net with bestMaster := some (dataset, m), utcOffset := utcOffset } }
        if s.time.refValid && step ≠ 0 then stepOffset step s else s
      else if dataset < d then
        countRef false { s with net := { s.net with bestMaster := some (dataset, master), utcOffset := utcOffset, syncCount := 0 } }
      else s
    | none => countRef false { s with net := { s.net with bestMaster := some (dataset, master), utcOffset := utcOffset, syncCount := 0 } }) s)

/-- A period of so many ticks has gone by since a tick, if there was one. -/
def periodOver (last : Option Nat) (k n : Nat) : Bool := last.all fun t => t + k ≤ n

/-- PDELAY_EXCHANGE (R302): once per second per port a Pdelay_Req, whose result is one of the 8 that the mean link delay is over. -/
def execPdelayExchange (port : Fin 2) (delayNs : Nat) (s : State) : Out :=
  ok (when_ (s.ticking && (s.port port).link && periodOver (s.port port).pdelayAt 1000 s.tick)
    (fun s => send (.pdelayReq port) (modPort port (fun p => { p with delays := (delayNs :: p.delays).take 8, pdelayAt := some s.tick }) s)) s)

/-- PTP_MASTER_SEND (R302): Sync every 125 ms or Announce every 1 s, on both ports with one HSR sequence number (R293). -/
def execPtpMasterSend (announce : Bool) (s : State) : Out :=
  ok (when_ (s.ticking && s.master && s.ptpMaster
      && (if announce then periodOver s.net.announceAt 1000 s.tick else periodOver s.net.syncAt 125 s.tick)) (fun s =>
    let f := if announce then Frame.ptpAnnounce 2 (s.time.tref.toNat / 2 ^ 24) (bits s.time.tref.toNat 23 16) s.ptpDomain 248 else Frame.ptpSync 2 0
    let s := if announce then { s with net := { s.net with announceAt := some s.tick } } else { s with net := { s.net with syncAt := some s.tick } }
    send f s) s)

/-- PPS_IO_INPUT_PULSE (R303): one pulse of the reference, 1 s ± 100 µs after the one before. -/
def execPpsIoInputPulse (us : Nat) (diffMs : Int) (s : State) : Out :=
  ok (when_ (s.ticking && s.master && s.ref = 2)
    (fun s => timeStep diffMs (countRef (999900 ≤ us && us ≤ 1000100) s)) s)

/-- TICK_IO_INPUT_PULSE (R19, R303): one pulse, 1 ms ± 5 µs after the one before; the tick number takes no step. -/
def execTickIoInputPulse (ns : Nat) (s : State) : Out :=
  ok (when_ (s.ticking && s.master && s.ref = 3) (countRef (995000 ≤ ns && ns ≤ 1005000)) s)

/-! Ports and ring. -/

/-- RING_PATH of a port (R286), and RING_CLOSED (R483). -/
def ringPath (p : Nat) (s : State) : State :=
  if (2, p) ∈ s.causes then s else addCause (2, p) (raise 0x95 p 0 s)
def ringClosed (p : Nat) (s : State) : State :=
  if (2, p) ∈ s.causes then delCause (2, p) (raise 0x96 p 0 s) else s

/-- LINK_UP (R289, R290): 1000BASE-T is a ring port, 100BASE-TX an interlink that opens the ring. -/
def execLinkUp (port : Fin 2) (gig master swap pol : Bool) (s : State) : Out :=
  ok (when_ (s.phys && !(s.port port).link) (fun s =>
    let s := modPort port (fun p => { p with link := true, gig := gig, master := master && gig, swap := swap, pol := pol, ring := gig,
                                             interlink := !gig, hsr := false, pmac := 0, delays := [], upAt := some s.tick, downAt := none,
                                             testAt := none }) s
    if gig then ringClosed port s else ringPath port s) s)

/-- LINK_DOWN (R286). -/
def execLinkDown (port : Fin 2) (s : State) : Out :=
  ok (when_ (s.phys && (s.port port).link) (fun s =>
    let s := if (s.port port).interlink then { s with net := { s.net with proxy := none } } else s
    ringPath port (modPort port (fun p => { discLong := p.discLong, discSpz := p.discSpz, ct := p.ct, busy := p.busy, tok := p.tok, tokAt := p.tokAt,
                                            downAt := some s.tick }) s)) s)

/-- HSR_PARTNER_TIMEOUT (R311). -/
def execHsrPartnerTimeout (port : Fin 2) (s : State) : Out :=
  let due := match (s.port port).upAt with
    | some t => t + 4000 ≤ s.tick
    | none => false
  ok (when_ ((s.port port).ring && !(s.port port).hsr && due) (fun s => ringPath port (modPort port (fun p => { p with ring := false }) s)) s)

/-- HSR_RING_OPEN (R286): supervision finds the ring open at a distant point. -/
def execHsrRingOpen (port : Fin 2) (s : State) : Out := ok (when_ (s.phys && (s.port port).ring) (ringPath port) s)

/-- HSR_SUPERVISION_SEND (R293): every 2 s, one frame on both ring ports, with the node proxied on an interlink. -/
def execHsrSupervisionSend (s : State) : Out :=
  ok (when_ (s.phys && periodOver s.net.supAt 2000 s.tick)
    (fun s => send (.supervision 2 s.net.proxy) { s with net := { s.net with supAt := some s.tick } }) s)

/-- The node table with a node heard at tick `n`: 128 entries, forgotten after 60 s (R293). Of a full table the node heard longest ago
leaves. Log 158: DESIGN CHOICE. -/
def hearNode (mac n : Nat) (l : List (Nat × Nat)) : List (Nat × Nat) :=
  ((mac, n) :: l.filter fun x => x.1 ≠ mac && n < x.2 + 60000).take 128

/-- SUPERVISION_FRAME (R293, R311): the node table, the partner's address and that it sends HSR frames; the module's own
frame back shows the ring closed. Log 55: DEDUCED. -/
def execSupervisionFrame (port : Fin 2) (x : Supervision) (s : State) : Out :=
  ok (when_ (s.phys && (s.port port).link) (fun s =>
    if x.mac = Config.mac then (if (s.port port).ring then ringClosed port s else s)
    else
      let s := hearPartner port { s with net := { s.net with nodes := hearNode x.mac s.tick s.net.nodes } }
      modPort port (fun p => { p with pmac := if x.partner then x.mac else p.pmac }) s) s)

/-- The end of the unprotected window that holds a µs of the tick, if any (R300). -/
def windowEnd (us : Nat) : Option Nat := if 250 ≤ us && us < 515 then some 515 else if 905 ≤ us && us < 985 then some 985 else none

/-- A frame for another port: class 0 cut through; the others when the window is open, no frame of their class waits and none of a
higher one that would still leave in the window, the last bit leaves in time behind the frames before it, and class 3 has its
tokens; else they wait (R292, R299, R300). Log 128: DESIGN CHOICE. -/
def forwardTo (p cls len us : Nat) (f : Frame) (stream : Bool) (s : State) : State :=
  let now := setPort p ((s.port p).fill (1000 * s.tick + us)) s
  let from_ := max (1000000 * s.tick + 1000 * us) (s.port p).busyTo
  let done := from_ + (s.port p).ns len
  let go := match windowEnd us with
    | some e =>
      let last := 1000000 * s.tick + 1000 * e
      done ≤ last && (cls ≠ 3 || 2 * len ≤ (now.port p).tok)
        && (s.net.held.all fun h => cls < h.cls || p ∉ h.ports s || (h.cls < cls && last < from_ + (s.port p).ns h.len))
    | none => false
  if cls = 0 then transmit f s
  else if go then transmit f (setPort p { now.port p with busyTo := done, tok := (now.port p).tok - if cls = 3 then 2 * len else 0 } now)
  else { s with net := { s.net with held := s.net.held ++ [{ cls := cls, len := len, port := p, frame := f, stream := stream }] } }

/-- A frame from the node on an interlink: its address is proxied, and it goes on as class 3 with a sequence number of that
address (R290, R293). One node is served: another source address there takes its place. Log 158: DESIGN CHOICE. -/
def fromInterlink (port src len us : Nat) (s : State) : State :=
  let s := { s with net := { s.net with proxy := some src, proxySeq := (s.net.proxySeq + 1) % 65536 } }
  if (s.port (1 - port)).link && s.sys.mode ≠ 11 && !s.inReset 0x11 then forwardTo (1 - port) 3 len us (.forward (1 - port) ((s.net.proxySeq + 65535) % 65536) none) false s else s

/-- FRAME_FORWARD (R291 to R293, R299, R300, R302): an over-long frame is counted; own frames are removed; frames to this node
alone are consumed; what has already gone in this direction is dropped; an interlink takes class 3 alone, and BLACKOUT sheds
it and class 2 but for the manager stream (R485); while NET is in reset nothing goes on (R465). The time that segment 0 of a Gust spends in the switch is added to its CORRECTION with the mean link delay. Log 56:
DEDUCED. -/
def execFrameForward (port : Fin 2) (src : Nat) (seq : BitVec 16) (cls : BitVec 2) (own : Bool) (len : Nat) (x : Transit) (s : State) : Out :=
  ok (when_ (s.phys && (s.port port).link) (fun s =>
    let other := 1 - port.val
    if (if (s.port port).interlink || !x.tagged then 1522 else 1528) < len then
      modPort port (fun p => { p with discLong := min (p.discLong + 1) 0xFFFFFFFF }) s
    else if src = Config.mac || s.net.proxy = some src && !(s.port port).interlink then s
    else if (s.port port).interlink then (if own then s else fromInterlink port src len x.us s)
    else
      let key := (src, seq.toNat, other)
      let dup := s.net.seen.any fun x => x.1 = key && s.tick < x.2 + 400
      let seen := (key, s.tick) :: s.net.seen.filter fun x => x.1 ≠ key && s.tick < x.2 + 400
      let s := when_ x.tagged (hearPartner port) { s with net := { s.net with seen := seen } }
      let takes := !s.inReset 0x11 && (s.port other).link && (if (s.port other).interlink then cls = 3 else (s.port other).ring)
      if dup || own || !takes || (s.sys.mode = 11 && (cls = 3 || (cls = 2 && !x.stream))) then s
      else
        let c := x.passage.map fun y => y.leaves (meanDelay (s.port port))
        let s := { s with net := { s.net with correction := c.getD s.net.correction } }
        forwardTo other cls.toNat len x.us (.forward other seq.toNat c) x.stream s) s)

/-! Cable test (R310). -/

/-- Table: Cable test record. -/
def cableRecord (tick port flags : Nat) (pairs : List (BitVec 4 × BitVec 16)) : List Byte :=
  leBytes 6 tick ++ leBytes 1 port ++ leBytes 1 flags
    ++ (tab 4 fun i => leBytes 4 (match pairs[i]? with
        | some x => x.1.toNat + 65536 * x.2.toNat
        | none => 6 + 65536 * 0xFFFF)).flatten

/-- CABLE_TEST: at BOOT, 1 s after a loss of link, or every 60 s while the link stays down. -/
def execCableTest (port : Fin 2) (s : State) : Out :=
  let p := s.port port
  let due := s.sys.mode = 4 || (match p.testAt with
    | some t => t + 60000 ≤ s.tick
    | none => p.downAt.all fun t => t + 1000 ≤ s.tick)
  ok (when_ (s.phys && !p.link && due && !s.inReset 0x11) (modPort port fun p => { p with busy := true, testAt := some s.tick }) s)

def execCableTestDone (port : Fin 2) (pairs : List (BitVec 4 × BitVec 16)) (s : State) : Out :=
  ok (when_ (s.port port).busy (modPort port fun p => { p with busy := false, ct := cableRecord s.tick port 1 pairs }) s)

/-- NET_CT_CTL request of one port (R310, R494). Log 58: DEDUCED. -/
def requestCableTest (p : Nat) (s : State) : State :=
  if (s.port p).busy then s
  else if (s.port p).link then modPort p (fun x => { x with ct := cableRecord s.tick p 2 [] }) s
  else modPort p (fun x => { x with busy := true }) s

end Sys2Proof.Machine
end

