-- ==== Sys2Proof/Machine/Status.lean ====
section
/-! DEFINITION. The module status block (11_host_rings R350) and the frames that carry it (10_domain_network R317). -/

namespace Sys2Proof.Machine

/-- DUTY byte (R350). -/
def dutyByte (s : State) : Nat := b2n s.master + 2 * b2n s.dom.standby + 4 * b2n s.dom.island

/-- RECORD_SPAN (R62, R350): from the earliest tick a replay can start at with every later block held, to the newest. -/
def recordSpan (s : State) : Nat :=
  match s.rec_.all.getLast? with
  | none => 0
  | some newest =>
    let held := fun t => s.rec_.all.any fun b => b.tick = t && t ∉ s.rec_.lost
    let starts := (s.rec_.ckpts.filterMap fun c => if c.ok then some (c.tick + 1) else none) ++ (s.rec_.all.filterMap fun b => if b.ckptCopy then some b.tick else none)
    let ok := fun (t : Nat) => t ≤ newest.tick && (List.range (newest.tick + 1 - t)).all fun i => held (t + i)
    match (starts.filter ok).foldl (fun m t => match m with
        | some x => some (min x t)
        | none => some t) none with
    | some t => min (newest.tick - t + 1) 0xFFFFFFFF
    | none => 0

def fwVersion (s : State) : Nat := (s.mem.images.getD s.mem.running {}).version
def ucVersion (s : State) : Nat := s.mem.uc.version

/-- Table: Module status block, 512 bytes. -/
def statusBlock (s : State) : List Byte :=
  let w := s.field.last
  leBytes 1 s.dom.dev ++ leBytes 1 s.sys.role ++ leBytes 1 s.sys.mode ++ leBytes 1 (dutyByte s) ++ leBytes 6 s.tick
    ++ leBytes 1 s.dom.islandCause ++ leBytes 1 0 ++ leBytes 2 s.eng.word ++ leBytes 2 0 ++ leBytes 8 s.epochId
    ++ leBytes 8 ((s.cfg.staged.map Epoch.id).getD 0) ++ leBytes 4 (fwVersion s) ++ leBytes 4 (ucVersion s)
    ++ leBytes 2 Config.sysStep ++ leBytes 2 s.dom.level ++ leBytes 4 (recordSpan s) ++ leBytes 4 ((s.dec.queue.map QItem.cost).foldl (· + ·) 0)
    ++ leBytes 4 s.mem.lastSeq ++ leBytes 4 s.mem.corrCnt ++ leBytes 4 s.mem.uncorrCnt
    ++ (tab 8 fun i => let o := tget {} w.lout i
        leBytes 2 o.ua ++ leBytes 2 o.pinMv ++ leBytes 2 (tc 16 ((w.lp.getD 4 0 : Int) - 3000 - o.pinMv)) ++ leBytes 1 (loutByte s w i) ++ leBytes 1 0).flatten
    ++ (tab 32 fun c => let d := tget (0, 0, 0) s.field.demag c
        leBytes 2 d.1 ++ leBytes 2 d.2.1 ++ leBytes 2 d.2.2).flatten
    ++ (tab 2 fun p => if (s.port p).ct = [] then leBytes 24 0 else (s.port p).ct).flatten
    ++ leBytes 2 s.sys.vinA ++ leBytes 2 s.sys.vinB ++ (tab 5 fun i => leBytes 2 (s.field.lpMv.getD i 0)).flatten ++ leBytes 2 0
    ++ (tab 16 fun i => leBytes 2 (tget 0 s.field.lampVf i)).flatten
    ++ (tab 2 fun i => leBytes 4 (s.panel i).crc).flatten ++ leBytes 88 0

/-- What of a block counts as a change (R296): all of it but TICK up to LEVEL; what follows is measured or counted. Log 159: DESIGN
CHOICE. -/
def statusKey (b : List Byte) : List Byte := b.take 4 ++ slice b 10 34

/-- The module's block leaves as a status frame; SRC_DEV 0xFE until admitted (R317). -/
def sendStatus (s : State) : State :=
  let b := statusBlock s
  send (.status (if s.dom.admitted then s.dom.dev else 0xFE) b)
    (withDom (fun d => { d with lastStatus := b, statusSent := some s.tick, statusKey := statusKey b }) s)

/-- A status frame is due: every 1 000 ticks and on change (R296). -/
def State.statusDue (s : State) : Bool := s.dom.statusSent.all (fun t => t + 1000 ≤ s.tick) || s.dom.statusKey ≠ statusKey (statusBlock s)

/-- STATUS_FRAME_SEND (R296, R317, R350): the block of a worker, a standby or a module on standby duty (R283). -/
def execStatusFrameSend (s : State) : Out :=
  ok (when_ (s.ticking && (2 ≤ s.sys.role || s.dom.standby) && !s.dom.serving && s.statusDue) sendStatus s)

/-- What the DUTY byte of a block says of standby duty: a module that takes it up ends the cause of R483, one that leaves it is
lost (R283). Log 122: DESIGN CHOICE. -/
def standbyDutyOf (d : Nat) (duty : Bool) (s : State) : State :=
  if s.isAdmitted d then s
  else if duty then delCause (14, 0) (withDom (fun x => { x with standbyDev := some d }) s)
  else if s.dom.standbyDev = some d then standbyGone s
  else s

/-- STATUS_FRAME (R317): the serving module keeps the latest block of the device, with its staged epoch. -/
def execStatusFrame (h : Hdr) (block : List Byte) (s : State) : Out :=
  ok (onFrame h 7 1 (fun s =>
    let d := u8 block 0
    if !s.domain || 63 < d || block.length ≠ 512 then s
    else standbyDutyOf d (bit (u8 block 3) 1) (setPeer d { s.peer d with status := block, staged := u64 block 24, statusAt := s.tick } s)) s)

end Sys2Proof.Machine
end

