-- ==== Sys2Proof/Machine/Phase.lean ====
section
/-! DEFINITION. The phases of a tick (02_the_tick R33) after its edge, and the happenings within EVALUATE and PUBLISH: what
a phase has not yet decided when its row comes, it decides then. -/

namespace Sys2Proof.Machine

/-! EVALUATE. -/

/-- The tick's block and work as one, put back after `f`. Log 8: DEDUCED. -/
def onTick (f : Ctx → Dec → Block × Work → Block × Work) (s : State) : State :=
  match s.rec_.block with
  | some b =>
    if s.deciding then
      let z := f s.ctx s.dec (b, s.workNow)
      { s with work := some z.2, rec_ := { s.rec_ with block := some z.1 } }
    else s
  | none => s

def setPhase (p : Nat) (s : State) : State := { s with time := { s.time with phase := p } }

/-- EVALUATE_PHASE (R193); the unprotected window from 250 µs on falls in it (R300). -/
def execEvaluatePhase (s : State) : Out :=
  ok (when_ (s.switching && s.time.phase = 0) (fun s => releaseHeld 250 515 (setPhase 1 (onTick (fun x cm z => finishEval x cm z) s))) s)

/-- A happening at point `p` within EVALUATE: points up to `p` are decided, and it comes about when `test` holds of the
point before and after. -/
def atPoint (p : Nat) (test : PointCfg → Block → PointState → PointState → Bool) (s : State) : State :=
  match s.rec_.block with
  | some b =>
    if s.deciding && s.time.phase = 0 then
      let x := s.ctx
      let w := evalUpTo x b s.dec p s.workNow
      let w' := evalUpTo x b s.dec (p + 1) w
      if w.cursor = p && test (s.cfg.e.pt p) b (w.d.pt p) (w'.d.pt p) then { s with work := some w' } else s
    else s
  | none => s

def execOnDelayExpiry (p : Fin 1024) (s : State) : Out := ok (atPoint p (fun _ _ o n => !o.a && n.a) s)
def execOffDelayExpiry (p : Fin 1024) (s : State) : Out := ok (atPoint p (fun _ _ o n => o.a && !n.a && !n.supp) s)
def execInhibitRelease (p : Fin 1024) (s : State) : Out := ok (atPoint p (fun _ _ o n => o.supp && !n.supp) s)
def execShelveExpired (p : Fin 1024) (s : State) : Out := ok (atPoint p (fun _ _ o n => o.shelveRem ≠ 0 && n.shelveRem = 0) s)
/-- R190: the end of a RATE window. -/
def execRateWindowEnd (p : Fin 1024) (s : State) : Out := ok (atPoint p (fun c b _ _ => c.srcKind ≠ 0 && c.cond = 6 && b.tick % c.param = 0) s)

/-- A step before point 0, taken when `test` holds of the work with the begin step done. -/
def atPrep (i : Nat) (test : Block → Work → Bool) (s : State) : State :=
  match s.rec_.block with
  | some b =>
    if s.deciding && s.time.phase = 0 then
      let w := beginEval s.ctx b s.workNow
      if i ∉ w.preps && test b w then { s with work := some (prepStep s.cfg.e b w i) } else s
    else s
  | none => s

/-- R167: the end of a counter's gate. -/
def execFreqGateEnd (c : Fin 8) (s : State) : Out := ok (atPrep c (fun b _ => gateDue (s.cfg.e.chan c) b.tick) s)

/-- Row `k` of Table: Low loop voltage is due for output `n` (R146). -/
def loutRowDue (k n : Nat) (b : Block) (w : Work) : Bool :=
  decide (loutDue (loutCount (b.loutOf n) (tget {} w.d.louts n)) = some k)

def execLoopVoltage (n : Fin 8) (s : State) : Out := ok (atPrep (8 + n) (loutRowDue 1 n) s)
def execLoutOffProt (n : Fin 8) (s : State) : Out := ok (atPrep (8 + n) (loutRowDue 2 n) s)
def execLoutRetry (n : Fin 8) (s : State) : Out := ok (atPrep (8 + n) (loutRowDue 3 n) s)
def execLoutResume (n : Fin 8) (s : State) : Out := ok (atPrep (8 + n) (loutRowDue 4 n) s)

/-- KEY_PRESS (R250, R423): the key entries and areas of the channel act. -/
def execKeyPress (c : Fin 32) (s : State) : Out :=
  ok (when_ (s.time.phase = 0) (onTick fun x cm z =>
    let w := beginEval x z.1 z.2
    if pressed z.1 cm c then keyStep x cm (z.1, w) c else (z.1, w)) s)

/-- SELECTOR_SETTLE (R251). -/
def execSelectorSettle (i : Fin 64) (s : State) : Out :=
  ok (when_ (s.time.phase = 0) (onTick fun x _ z => selStep x (z.1, beginEval x z.1 z.2) i) s)

/-! PUBLISH. -/

/-- A happening of session `i` in Squall's step: sessions up to it are decided, and it comes about when the events show
`cause`. -/
def atSession (i cause : Nat) (s : State) : State :=
  match s.rec_.block with
  | some b =>
    if s.deciding && s.time.phase = 1 && s.dom.serving then
      let z := finishEval s.ctx s.dec (b, s.workNow)
      let w := callUpTo s.ctx z.1 (i + 1) (callUpTo s.ctx z.1 i z.2)
      if z.2.callCursor ≤ i && w.evs.any fun v => v.kind = 3 && v.point = i && v.cause = cause then
        { s with work := some w, rec_ := { s.rec_ with block := some z.1 } }
      else s
    else s
  | none => s

def execEscalate (i : Fin 64) (s : State) : Out := ok (atSession i 0x51 s)
def execWkPrewarn (i : Fin 64) (s : State) : Out := ok (atSession i 0x58 s)
def execWkCall (i : Fin 64) (s : State) : Out := ok (atSession i 0x59 s)

/-- Queued entries too old for the digest of tick `n` leave with EVT_OVERFLOW (R46). -/
def dropAged (n : Nat) (s : State) : State :=
  let old := fun (i : QItem) => match i with
    | .ev v => decide (v.tick + (2 ^ 24 - 1) ≤ n)
    | .act a => decide (a.tick + (2 ^ 24 - 1) ≤ n)
  let q := s.view.queue
  let s := (q.filter old).foldl (fun s i => addCause (11, 0) (match i with
    | .ev v => raise 0x85 v.seq 2 s
    | .act _ => raise 0x85 0 3 s)) s
  modDec (fun d => { d with queue := d.queue.filter fun i => !old i }) s

/-- The items of a digest of at most `k` entries, oldest first, and those left; a KIND 4 entry is never parted from its
continuation (R46, R47). -/
def takeItems : Nat → List QItem → List QItem × List QItem
  | _, [] => ([], [])
  | k, i :: t => if i.cost ≤ k then
      let r := takeItems (k - i.cost) t
      (i :: r.1, r.2)
    else ([], i :: t)

/-- Published states of a module's slots (R211). -/
def slotStates (e : Epoch) (d : Dec) : Tbl Nat :=
  e.point.publish.zipIdx.foldl (fun t x => match x.1 with
    | some p => tset 15 t x.2 (d.pt p).state
    | none => t) []

def itemTick : QItem → Nat
  | .ev v => v.tick
  | .act a => a.tick

/-- The module's digest of the tick in progress leaves, or is handed over within the serving module (R27, R44, R47, R298);
an island sends none (R57). -/
def sendDigest (pub : Tbl Nat) (items rest : List QItem) (absent held : Bool) (s : State) : State :=
  let entries := items.map fun i => ({ item := i, queued := itemTick i < s.tick } : DigestEntry)
  let late := items.any fun i => match i with
    | .ev v => v.catchup
    | .act a => a.catchup
  let x : Digest := { dev := s.dom.dev, gustAbsent := absent, queued := rest ≠ [], catchup := held || late, creditRet := s.dom.creditRet,
                      tick := s.tick, depth := (rest.map QItem.cost).foldl (· + ·) 0, epochId := s.epochId, pub := pub, entries := entries }
  let s := modDec (fun d => { d with queue := rest, unconf := if s.dom.serving then d.unconf else d.unconf ++ [(s.tick, items)] }) s
  let s := withDom (fun d => { d with
    own := if s.dom.serving then some x else none
    snooped := if s.follows then snoop s.tick x d.snooped else d.snooped }) s
  if s.dom.serving then s else send (.digest x) s

/-- The module sends digests: it serves or is admitted, and is no island. -/
def State.sendsDigest (s : State) : Bool := s.dom.serving || (s.dom.admitted && !s.dom.island)

/-- The digest of a decided tick (R44), or the hold digest of R263. -/
def publishDigest (held : Bool) (s : State) : State :=
  let absent := match s.rec_.block with
    | some b => b.gustAbsent
    | none => false
  if !s.sendsDigest then s
  else if held then sendDigest (slotStates s.cfg.e s.dec) [] s.view.queue absent true s
  else
    let s := dropAged s.tick s
    let z := takeItems 32 s.view.queue
    sendDigest (slotStates s.cfg.e s.view) z.1 z.2 absent false s

/-- The holding digest of a mode that decides nothing (R478): no published state, module status events alone. -/
def holdingDigest (s : State) : State :=
  if !s.sendsDigest || !s.time.domain || !(s.sys.mode = 7 || s.sys.mode = 12) then s
  else
    let isStatus := fun (i : QItem) => match i with
      | .ev v => v.kind = 4
      | .act _ => false
    let s := dropAged s.tick s
    let z := takeItems 32 (s.view.queue.filter isStatus)
    sendDigest [] z.1 (s.view.queue.filter fun i => i ∉ z.1) false false s

/-- Status events of a mode that keeps no block take their SEQ in PUBLISH (R60, R223), with the tick of the domain: they wait
while the module has only its local count (R29). -/
def numberWaiting (s : State) : State :=
  if !s.time.domain then s
  else
  let vs := s.rec_.waiting.map fun v => ({
    kind := 4, point := 0, old := v.modeB, new := v.modeA, cause := v.cause, word := v.dw4, dw5 := v.dw5, tick := s.tick } : Ev)
  let evs := number s.cfg.e false s.dec.seq vs
  let s := { s with dec := { s.dec with seq := (s.dec.seq + evs.length) % 2 ^ 32 }, rec_ := { s.rec_ with waiting := [] } }
  emit evs [] s

/-- A block that no engine decides any more, its mode left or SAFE-HOLD entered with it open: its status events take their SEQ in
PUBLISH all the same, behind those that waited (R60, R223, R256). -/
def numberBlock (b : Block) (s : State) : State :=
  let s := numberWaiting s
  if !s.time.domain then s
  else
    let evs := number s.cfg.e false s.dec.seq (statusEvs b)
    emit evs [] { s with dec := { s.dec with seq := (s.dec.seq + evs.length) % 2 ^ 32 } }

/-- Worker events of the digests of tick N − 1 go to the host by DEV, in entry order (R346, R347). -/
def hostDigestEvents (s : State) : State :=
  (s.dom.digestsPrev.filter fun x => x.dev ≠ s.dom.dev).foldl (fun s x => x.entries.foldl (fun s e => match (hostEntry s x e).item with
    | .ev v => postEvent v.kind (eventWords x.dev e.queued false false v) s
    | .act _ => s) s) s

/-- CFG_COMMIT completes in PUBLISH of A + 1 with the devices whose digests of A came with the new epoch (R391). -/
def commitDone (s : State) : List ((Nat × Nat) × (State → State)) :=
  match s.dom.done with
  | some p =>
    let n := 1 + (s.dom.digestsPrev.filter fun x => x.dev ≠ s.dom.dev && x.epochId = p.id).length
    match p.origin with
    | some (r, i) => if p.apply + 1 ≤ s.tick then [((r, i), complete (.ring r i) p.apply p.tag 0x11 0 (okLate p.late) 0 (p.id % 2 ^ 32) n p.apply)] else []
    | none => []
  | none => []

/-- Commands whose input the Gust of this tick carries complete (R340, R341), and with them a commit: TICK_USED is the apply tick.
An input whose command was submitted to the manager before is known from then on (R282).
RESULT_A of a MODE_REQ that travels in a Gust is the mode asked for. Log 162: DESIGN CHOICE. -/
def completePlaced (s : State) : State :=
  let known := (s.dom.placed.filter (·.orphan)).map fun x => (s.tick, x.known (okLate x.late) ((s.tick + 1) % 2 ^ 48))
  let used := (s.tick + 1) % 2 ^ 48
  let placed := s.dom.placed.filterMap fun x => if x.orphan then none else x.ring.map fun o =>
    (o, complete (.ring o.1 o.2) x.apply x.input.tag x.input.opcode x.dev (okLate x.late) 0 (if x.input.opcode = 0x02 then x.input.arg % 16 else 0) 0 used)
  (byRing (placed ++ commitDone s)).foldl (fun s f => f s) (withDom (fun d => { d with
    placed := [], known := known ++ d.known, done := d.done.filter fun p => s.tick < p.apply + 1 }) s)

/-- The journal frame of a serving manager with a standby (R275). -/
def sendJournal (s : State) : State :=
  let s' := withDom (fun d => { d with cmds := [] }) s
  if s.domain && s.standbyPresent then
    sendStream (.journal {
      tick := s.tick, digest := s.dom.own, cmds := s.dom.cmds,
      inputs := ((sortScheds (s.view.scheds.filter fun x => x.apply ≤ s.tick + 2)).take 8).map (·.input) }) s'
  else s'

/-- PUBLISH_PHASE (R44, R227, R263, R298, R346): the tick's events numbered, stored and queued, the digest sent, worker
events and completions written. -/
def execPublishPhase (s : State) : Out :=
  ok (when_ (s.ticking && s.time.phase = 1) (fun s =>
    let s := setPhase 2 s
    let s := match s.rec_.block with
      | some b =>
        if s.deciding then
          let z := finishTick s.ctx s.dec (b, s.workNow)
          let s := { s with work := some z.2.1, rec_ := { s.rec_ with block := some z.1 } }
          publishDigest false (emit z.2.2 (blockActions z.1) s)
        else if s.decides && s.eng.duty = 2 then publishDigest true s
        else holdingDigest (numberBlock b s)
      | none => holdingDigest (if 6 ≤ s.sys.mode then numberWaiting s else s)
    let s := if s.dom.serving then hostDigestEvents s else s
    sendJournal (completePlaced s)) s)

/-! LULL. -/

/-- R308: each worker's books. -/
def creditCheck (s : State) : State :=
  s.admittedDevs.foldl (fun s d =>
    let p := s.peer d
    let k := (p.s + 256 - p.ret % 256) % 256
    if p.admitAt.isSome && 16 < k then deadmit d (raise 0x9A d k s) else s) s

/-- The notch centre for the next edge (R113), in 1/65 536 Hz; MAINS bits of the cell section choose nominal and tracking. -/
def notchOf (c : CellSec) (mains : Nat) : Nat :=
  if mains = 0 || !c.track then (if c.nominal60 then 60 else 50) * 65536 else min (max mains (45 * 65536)) (66 * 65536)

/-- The tick's decisions committed and its outputs staged (R36, R219); the power-off states in the tick of a power-fail
warning (R457). -/
def commitTick (w : Work) (s : State) : State :=
  let last := s.sys.powerFail = some s.tick
  let z := if last then (powerOffOutputs s.cfg.e w.d, w.d) else decideOutputs s.ctx s.tick w.d
  { s with
    dec := z.2, work := none,
    field := { s.field with staged := z.1, stagedFull := true }
    cfg := if (s.rec_.block.map (·.epochFirst)).getD false then { s.cfg with old := some s.cfg.e } else s.cfg }

/-- Every command decoded and not finished: waiting, in the field side, the audit, a block reset, the channels and the panels.
Log 78: DEDUCED. -/
def State.openJobs (s : State) : List Job :=
  let opJobs := s.panels.flatMap (·.jobs)
  let chanJobs := s.mem.chans.filterMap (·.2.job) ++ s.mem.chans.filterMap (·.2.pauser)
  let audit := match s.eng.audit with
    | some a => a.job
    | none => none
  let rep := s.eng.repeatDue.bind (·.job)
  s.hif.jobs ++ s.sys.blkJob.toList ++ s.field.survey.toList ++ s.field.surveyEnd.toList ++ s.field.lead.toList ++ s.field.lampTests.map (·.2.2) ++ s.field.lampNew
    ++ audit.toList ++ rep.toList ++ opJobs ++ chanJobs ++ s.hif.rereads.map (·.job)
    ++ s.mem.loads.map fun x => { cmd := x.1, origin := x.2, start := s.tick, late := false }

/-- None of those commands is open any more. -/
def forgetJobs (s : State) : State :=
  let noJob := fun (o : Option PanelOp) => o.map fun x => { x with job := none }
  { s with
    hif := { s.hif with jobs := [], rereads := [] }
    sys := { s.sys with blkJob := none }
    field := { s.field with survey := none, surveyEnd := none, lead := none, lampTests := [], lampNew := [] }
    eng := { s.eng with audit := s.eng.audit.map fun a => { a with job := none }, repeatDue := s.eng.repeatDue.map fun a => { a with job := none } }
    mem := { s.mem with chans := s.mem.chans.map fun c => (c.1, { c.2 with job := none, pauser := none }), loads := [], fetches := [] }
    panels := s.panels.map fun p => { p with
      op := noJob p.op, pendClear := noJob p.pendClear, interrupted := noJob p.interrupted
      pendHost := p.pendHost.map fun x => ({ x.1 with job := none }, x.2) } }

/-- What stands scheduled, forwarded or announced stays for its effect, with no command to complete. -/
def forgetQueued (s : State) : State :=
  let s := modDec (fun d => { d with scheds := d.scheds.map fun x => { x with ring := none } }) s
  withDom (fun d => { d with
    peers := d.peers.map fun p => (p.1, { p.2 with flights := [] })
    pend := d.pend.map fun p => { p with origin := none }
    done := d.done.map fun p => { p with origin := none } }) s

/-- Every command that has not finished ends ABORTED, in the order of R341: those that run or wait here, and those that stand
scheduled, forwarded or announced. -/
def abortCommands (s : State) : State :=
  let here := s.openJobs.map fun j => (j.origin.place, finishJob j 5 0 0)
  let queued := s.view.scheds.filterMap fun x => if x.orphan then none else x.ring.map fun o =>
    (o, complete (.ring o.1 o.2) x.apply x.input.tag x.input.opcode x.dev 5 0 0 0 s.tick)
  let away := s.dom.peers.flatMap fun p => p.2.flights.map fun f => (f.origin.place, finish f.origin f.cmd 5 0 0 0 s.tick)
  let read := s.mem.fetches.map fun f => (f.flight.origin.place, finish f.flight.origin f.flight.cmd 5 0 0 0 f.compl.used)
  let commits := (s.dom.pend.toList ++ s.dom.done.toList).filterMap fun p => p.origin.map fun o =>
    (o, complete (.ring o.1 o.2) p.apply p.tag 0x11 0 5 0 0 0 p.start)
  (byRing (here ++ queued ++ away ++ read ++ commits)).foldl (fun s f => f s) (forgetQueued (forgetJobs s))

/-- What else the Lull of the tick of a power-fail warning holds (R457): commands that have not finished end ABORTED, the
power-off states are staged, and status events not yet numbered go to the event store. -/
def lastLull (s : State) : State :=
  let s := abortCommands s
  let s := withField (fun f => { f with staged := powerOffOutputs s.cfg.e s.dec, stagedFull := true }) s
  if 6 ≤ s.sys.mode then numberWaiting s else s

/-- The block of every hundredth tick joins the decimated record, which holds 6 133 350 entries of 320 bytes (R370). An entry that fills a
page has it programmed; if that fails with the reserve empty the entries of the page are lost (R368). -/
def decimate (s : State) : State := match s.rec_.block with
  | some b => if b.tick % 100 = 0 then
      let l := s.rec_.decim ++ [b]
      let l := l.drop (l.length - 6133350)
      let k := b.tick / 100
      if (320 * k + 320) / 4096 = 320 * k / 4096 then { s with rec_ := { s.rec_ with decim := l } }
      else
        let r := program (logPage 0x0B000000 479232 s) 1 s
        { r.2 with rec_ := { r.2.rec_ with decim := if r.1 then l else l.take (l.length - 13) } }
    else s
  | none => s

/-- The make steps of the first Lull after BOOT (R81): every routed cell and every CJC cell is then a changed cell. -/
def makeRoutes (s : State) : State :=
  when_ s.field.makeDue (withField fun f => restartCells s.cfg.e s.tick (routedCells s.cfg.e f.route) { f with makeDue := false }) s

/-- LULL_PHASE (R33, R36, R219, R220, R308): a census out of balance leaves commit, checkpoint and staging undone and
starts a takeover; that of a tick decided late is checked in the Lull of the tick that decided it (R262). -/
def execLullPhase (diffMs : Int) (s : State) : Out :=
  ok (when_ (s.ticking && s.time.phase = 2) (fun s =>
    let s := setPhase 3 s
    let s := match s.work with
      | some w =>
        if s.deciding && w.pubDone then
          if censusOk s.cfg.e w.d then
            let s := commitTick w s
            match s.rec_.block with
            | some b => if b.epochFirst then applyRtcSection s.cfg.e.mode s else s
            | none => s
          else takeover s
        else s
      | none => if s.decides && s.eng.duty = 2 && s.eng.censusBad then takeover s else stageMode s
    let s := decimate s
    let s := makeRoutes (surveyRoutes (withField (fun f => { f with notchNext := notchOf s.cfg.e.cell f.mains }) s))
    let s := leaveRefused (if s.dom.serving then decideJoins (creditCheck s) else s)
    let s := timeStep diffMs s
    let s := if s.dec.queue = [] then delCause (11, 0) s else s
    let s := firmwareLog (if s.sys.powerFail = some s.tick then lastLull s else s)
    withDom (fun d => { d with lastStatus := statusBlock s }) s) s)

/-- A checkpoint that cannot be read: set A treats it as absent, with CKPT_LOST (R266); set B resets (R287). -/
def loseCkpt (t : Nat) (s : State) : State :=
  if s.mem.optUse.setB then beginReset 5 s
  else
    let s := { s with rec_ := { s.rec_ with ckpts := s.rec_.ckpts.map fun c => if c.tick = t then { c with ok := false } else c } }
    addCause (10, 0) (raise 0x87 s.eng.word (t % 2 ^ 32) s)

/-- A checkpoint is read back in detect-only mode (R261, R376); one found valid ends CKPT_LOST (R483). Log 147: DESIGN CHOICE. -/
def readBackCkpt (t : Nat) (s : State) : State :=
  let s := match Config.badBlock s.free with
    | none => delCause (10, 0) s
    | some a => loseCkpt t (storeError (.checkpoint t) a s)
  { s with free := s.free + 1 }

/-- The checkpoint of the tick in progress, once its decisions are committed; its copy stands in the block of N + 1 when that is
a multiple of 65 536; none from an engine that has failed (R260). -/
def writeCkpt (s : State) : State :=
  if s.decides && s.rec_.block.isSome && (s.eng.duty = 1 || s.eng.duty = 2) && s.eng.fault.isNone && s.work.isNone && s.dec.lastTick = some s.tick
      && !(s.rec_.ckpts.any fun c => c.tick = s.tick) then
    readBackCkpt s.tick { s with rec_ := { s.rec_ with
      ckpts := (newCkpt s.dec s :: s.rec_.ckpts).take (keptCkpts s), copyDue := (s.tick + 1) % 65536 = 0 } }
  else s

/-- It goes to the standby for every such tick while the module serves, once a tick that is decided is committed: that of a tick
still to be decided goes when it has been. -/
def sendRole (s : State) : State :=
  if !s.domain || !s.standbyPresent then s
  else if !s.decides || s.dec.lastTick = some s.tick then sendStream (.role (roleCkpt s)) s
  else withDom (fun d => { d with roleDue := some (s.tick, marksNow s) }) s

/-- CHECKPOINT_WRITE (R61, R275): in the Lull of a tick N with N mod 16 = 15. -/
def execCheckpointWrite (s : State) : Out :=
  ok (when_ (s.ticking && 3 ≤ s.time.phase && s.tick % 16 = 15) (fun s =>
    let s := writeCkpt s
    if s.ticking then sendRole s else s) s)

/-- LAMP_TEST_END (R430): after the last named tick, with the LAMP code of every sink of that tick. -/
def execLampTestEnd (s : State) : Out :=
  let ended := s.field.lampTests.filter fun t => t.1 < s.tick
  ok ((byRing (ended.map fun t => (t.2.2.origin.place, t))).foldl (fun s t => finishJob t.2.2 t.2.2.done
      (pack 2 (tab 16 fun n => tget 0 s.field.lampCode n)) 0 s)
    (withField (fun f => { f with lampTests := f.lampTests.filter fun t => !(t.1 < s.tick) }) s))

end Sys2Proof.Machine
end

