-- ==== Sys2Proof/Machine/Power.lean ====
section
/-! DEFINITION. Feeds, the power-fail sequence, resets, the strap, option blocks and BOOT (16_power_reset_modes R454 to
R481). -/

namespace Sys2Proof.Machine

/-! Feeds (R454, R457). -/

def feed (b : Bool) (mv : Nat) (present tooHigh : Bool) (s : State) : State :=
  withSys (fun y => if b then { y with vinB := mv, presentB := present, overB := tooHigh } else { y with vinA := mv, presentA := present, overA := tooHigh }) s
def State.present (s : State) (b : Bool) : Bool := if b then s.sys.presentB else s.sys.presentA
def State.tooHigh (s : State) (b : Bool) : Bool := if b then s.sys.overB else s.sys.overA

/-- The feed `b` is out while the other is present: the event and the cause of R285, once. -/
def feedOut (b : Bool) (s : State) : State :=
  if !s.present b && s.present (!b) && (1, b2n b) ∉ s.causes then addCause (1, b2n b) (raise 0x93 (b2n b) 0 s) else s

/-- VIN_LOST: below 16.0 V or above 34.0 V (R454); over-voltage, also of a feed that is out already, stays until the feed is back. -/
def execVinLost (b : Bool) (mv : Nat) (s : State) : Out :=
  ok (when_ (mv < 16000 || 34000 < mv) (fun s => feedOut b (feed b mv false (s.tooHigh b || 34000 < mv) s)) s)

/-- The OR-ed supply is back: the power-on reset releases, with V33_OUT and the converter on (R454 to R457). -/
def supplyBack (s : State) : State :=
  when_ s.sys.porHeld (fun s => withSys (fun y => { y with porHeld := false, v33 := true }) { s with field := { s.field with powered := true } }) s

/-- VIN_RESTORED: 17.0 to 34.0 V for 100 ms, after over-voltage back in 18 to 32 V (R454). -/
def execVinRestored (b : Bool) (mv : Nat) (s : State) : Out :=
  let good := if s.tooHigh b then 18000 ≤ mv && mv ≤ 32000 else 17000 ≤ mv && mv ≤ 34000
  ok (when_ (!s.present b && good) (fun s =>
    let s := feed b mv true false s
    let s := if (1, b2n b) ∈ s.causes || 4 ≤ s.sys.mode then delCause (1, b2n b) (raise 0x94 (b2n b) 0 s) else s
    supplyBack (feedOut (!b) s)) s)

/-- A feed is lost (R454): so it stands, or so its measurement puts it. -/
def State.lostAt (s : State) (b : Bool) (mv : Nat) : Bool := !s.present b || mv < 16000 || 34000 < mv

/-- POWER_FAIL (R457): both feeds are lost; NODE_OK opens and channels 0..11 pause (R362). In the Lull, once its work is done, the
steps of the last Lull follow at once. -/
def execPowerFail (mvA mvB : Nat) (s : State) : Out :=
  ok (when_ (4 ≤ s.sys.mode && s.sys.powerFail.isNone && s.sys.mode ≤ 12 && s.lostAt false mvA && s.lostAt true mvB) (fun s =>
    let s := feed true mvB false (s.sys.overB || 34000 < mvB) (feed false mvA false (s.sys.overA || 34000 < mvA) s)
    let s := raise 0xA0 (max mvA mvB) 0 s
    let s := withSys (fun y => { y with powerFail := some s.tick, nodeOk := false }) s
    let s := { s with mem := { s.mem with chans := s.mem.chans.map fun c =>
        (c.1, if c.1 < 12 && (c.2.state = 1 || c.2.state = 2) then { c.2 with pause := true, state := 3, feed := if c.2.failing = 0 then [] else c.2.feed } else c.2) } }
    when_ (s.ticking && 3 ≤ s.time.phase) lastLull s) s)

/-- Bytes of a checkpoint (R61), the internal layout's. -/
def ckptBytes (s : State) (tick : Nat) : Nat := 4 * (1 + Config.ckptLen tick % (if s.sys.role < 3 then 24576 else 8192))

/-- Bytes a block takes in the record (R59 to R61). -/
def blockLen (s : State) (b : Block) : Nat :=
  352 + b.extBytes.length + if b.ckptCopy then 8 + ckptBytes s b.tick else 0

/-- Blocks, newest first, that fit in `room` bytes (R62). -/
def keepBlocks (s : State) : Nat → List Block → List Block
  | _, [] => []
  | room, b :: t => if blockLen s b ≤ room then b :: keepBlocks s (room - blockLen s b) t else []

/-- MAGIC of a power-fail area (R373). -/
def pfMagic : Nat := 0x4C465750

/-- The header of a power-fail area (R373), in the order R373 gives; the manual gives no offsets. Log 147: DESIGN CHOICE. -/
def pfHeader (tick lastSeq : Nat) (lens : List Nat) : List Byte :=
  let body := leBytes 4 pfMagic ++ leBytes 6 tick ++ leBytes 4 lastSeq ++ lens.flatMap (leBytes 4)
  let body := body ++ List.replicate (62 - body.length) 0
  body ++ leBytes 2 (crc16 body).toNat

/-- The power-fail area of a module's last tick (R373): the blocks of its last 128 ticks, the oldest left out past 128 KiB. -/
def pfArea (s : State) (w : Nat) : PfArea :=
  let blocks := keepBlocks s 131072 (s.rec_.all.reverse.filter fun b => w < b.tick + 128)
  { header := pfHeader (((s.rec_.all.getLast?).map (·.tick)).getD w) ((s.dec.seq + 2 ^ 32 - 1) % 2 ^ 32)
      [ckptBytes s w, 32 * s.mem.page.length, (blocks.map (blockLen s)).foldl (· + ·) 0]
    ckpt := some { newCkpt s.dec s with tick := w }, page := s.mem.page, blocks := blocks }

/-- The area is programmed, its header last, into the erased one of the two, and verified (R373, R376). -/
def programArea (a : PfArea) (s : State) : State :=
  let k := (s.mem.areas.findIdx? (· = none)).getD 0
  let r := program (0x00100000 + 0x00100000 * k) 256 s
  withMem (fun m => { m with areas := if r.1 && s.mem.areas.any (· = none) then m.areas.set k (some a) else m.areas }) r.2

/-- POWER_FAIL_AREA_DONE (R456, R457): the area is complete; cause POWER_FAIL, the converter stops, and RESET holds until the
power-on reset releases, which a feed that has come back does at once. -/
def execPowerFailAreaDone (s : State) : Out :=
  ok (match s.sys.powerFail with
    | some w =>
      let s := panelsPowerFail s
      let s := beginReset 3 (writeArisen (programArea (pfArea s w) s))
      let fed := s.sys.presentA || s.sys.presentB
      withSys (fun y => { y with porHeld := !fed }) { s with field := { s.field with powered := fed } }
    | none => s)

/-! Supplies (R433, R455, R456, R481). -/

/-- POR: below 13.0 V a reset begins, and with both feeds lost the module is left to its backup supply; with one present the power-on
reset releases again, V33_OUT and the converter with it (R455, R456). The first application of VIN takes the module from OFF or
BACKUP into RESET. Log 89: DEDUCED. -/
def execPor (s : State) : Out :=
  ok (if s.sys.mode ≤ 2 then
      let s := backupSupply s
      withSys (fun y => { y with mode := 3, prevMode := y.mode, v33 := true }) { s with field := { s.field with powered := true } }
    else
      let s := beginReset 1 s
      let fed := s.sys.presentA || s.sys.presentB
      let s := withSys (fun y => { y with v33 := fed, porHeld := false }) { s with field := { s.field with powered := fed } }
      if fed then withSys (fun y => { y with mode := 3 }) s
      else if s.sys.vbat then withSys (fun y => { y with mode := 2 }) s
      else backupLost (withSys (fun y => { y with mode := 1 }) s))

/-- VBAT_APPLIED: at or above 2.0 V, OFF becomes BACKUP. -/
def execVbatApplied (mv : Nat) (s : State) : Out :=
  ok (when_ (2000 ≤ mv) (fun s => withSys (fun y => { y with vbat := true, mode := if y.mode = 1 then 2 else y.mode, prevMode := if y.mode = 1 then 1 else y.prevMode })
    (backupSupply s)) s)

/-- VBAT_LOSS (R481, R507): in BACKUP the domain loses its supply; the module is OFF and PWR_ON low. -/
def execVbatLoss (s : State) : Out :=
  ok (let s := withSys (fun y => { y with vbat := false }) s
    if s.sys.mode = 2 then backupLost (withSys (fun y => { y with mode := 1, prevMode := 2 }) s) else s)

/-! Resets (R460). -/

/-- RESET_N: an external low of at least 10 µs, ignored in the first 100 µs after the module has released the line. One that lasts
holds the stretch (R511). Log 90: DEDUCED. -/
def execResetN (p : LowPulse) (s : State) : Out :=
  ok (when_ (3 ≤ s.sys.mode && 10000 ≤ p.ns && (s.sys.mode = 3 || 100 ≤ p.us))
    (fun s => withSys (fun y => { y with extLow := p.lasts }) (beginReset 2 s)) s)

/-- HEARTBEAT: set A opens NODE_OK and holds it open, set B resets. -/
def execHeartbeat (s : State) : Out :=
  ok (when_ (4 ≤ s.sys.mode && s.sys.mode ≤ 12) (fun s =>
    if s.mem.optUse.setB then beginReset 6 s else withSys (fun y => { y with hbLost := true, nodeOk := false }) (writeArisen s)) s)

/-! Release (R462, R467 to R469). -/

/-- The window of a strap reading, by Table: CFG_SEL codes. -/
def strapCode (r : Nat) : Option Nat :=
  ([(0, 25), (42, 92), (108, 158), (175, 225), (242, 292), (308, 358), (375, 425), (442, 492), (508, 558), (575, 625), (642, 692),
    (708, 758), (775, 825), (842, 892), (908, 958), (975, 1000)].findIdx? fun w => w.1 ≤ r && r ≤ w.2)

/-- Role of a code, as Table: Join request codes it, and variant as DOM_ROLE codes it. -/
def strapRole (c : Nat) : Nat × Nat :=
  [(3, 2), (0, 0), (0, 1), (0, 2), (0, 3), (1, 0), (1, 1), (1, 2), (1, 3), (2, 0), (2, 1), (2, 2), (2, 3), (3, 3), (3, 1), (3, 0)].getD c (3, 2)

/-- Code and GUARD of four readings. -/
def latchStrap (rs : List Nat) : Nat × Bool :=
  match rs.map strapCode with
  | [some a, some b, some c, some d] => if a = b && b = c && c = d then (a, false) else (0, true)
  | _ => (0, true)

/-- The newer of two valid option blocks (R468): SEQ compared as a signed 16-bit difference. -/
def newerOpt (a b : OptBlock) : OptBlock := if sx 16 (b.seq - a.seq).toNat ≤ 0 then a else b

/-- Copy `k` of the option block, when valid. -/
def Mem.opt (m : Mem) (k : Nat) : Option OptBlock := readOpt optMagic (m.opts.getD k [])

/-- The valid copy with the higher SEQ (R468). -/
def Mem.newestOpt (m : Mem) : Option OptBlock := match m.opt 0, m.opt 1 with
  | some a, some b => some (newerOpt a b)
  | some a, none => some a
  | none, b => b

/-- The option block in use, with the override in RECOVERY and TEST; both copies invalid give set A and debug locked. -/
def optInUse (m : Mem) (variant : Nat) : Option OptBlock :=
  match m.newestOpt, readOpt overrideMagic m.override with
  | some o, some v =>
    if variant = 2 || variant = 3 then some { o with setB := v.setB, dbgOpen := v.dbgOpen, prefB := v.prefB } else some o
  | o, _ => o

/-- RESET_RELEASE: the end of the stretch, which an external low or a supply not yet back holds (R457, R511); BOOT. A RECOVERY request counts as that variant once (R481). Log 92: DEDUCED. -/
def execResetRelease (ratios : List Nat) (perstHigh : Bool) (s : State) : Out :=
  ok (when_ (s.sys.mode = 3 && s.sys.powerFail.isNone && !s.sys.porHeld && !s.sys.extLow) (fun s =>
    let (code, guard_) := latchStrap ratios
    let (role, variant) := strapRole code
    let variant := if s.sys.recoveryOnce then 2 else variant
    let o := optInUse s.mem variant
    let variant := if o.isNone then 2 else variant
    let u := o.getD { setB := false, dbgOpen := false }
    let s := { s with
      sys := { s.sys with role := role, variant := variant, code := code, guard := guard_, ratio := ratios.getLastD 0, mode := 4, prevMode := 3,
                          recoveryOnce := false, v33 := true, perstHigh := perstHigh }
      field := { s.field with powered := true, dead := true, strobes := 0 }
      hif := { s.hif with released := decide (role < 3) && perstHigh }
      mem := { s.mem with optUse := u, optPend := s.mem.newestOpt.getD u } }
    withDom (fun d => { d with
      id := u.domain.toNat, idNext := u.domain.toNat, levelSet := u.level.toNat
      dev := if role < 2 then 0 else if role = 2 then 1 else u.devNum.toNat }) s) s)

/-! BOOT (R257, R372, R373, R394, R475, R476). -/

/-- SEC accepts an image (R472). -/
def BImage.accepted (i : BImage) : Bool := !i.empty && i.sig && i.hash && i.stepMin ≤ Config.sysStep && Config.sysStep ≤ i.stepMax

/-- Two parts are mutually listed (R474). -/
def listed (a b : BImage) : Bool := a.peerMin ≤ b.version && b.version ≤ a.peerMax && b.peerMin ≤ a.version && a.version ≤ b.peerMax

/-- Status of one image by itself (Table: Image status codes). -/
def imageStatus (i : BImage) : Nat :=
  if i.empty then 2 else if !i.sig then 3 else if !i.hash then 4 else if !i.accepted then 5 else 0

/-- Status of a slot beside the microcode in use; with none, no slot is examined (R475). -/
def slotStatus (i : BImage) (u : Option BImage) : Nat :=
  match u with
  | none => 1
  | some m =>
    if imageStatus i ≠ 0 then imageStatus i
    else if !(i.peerMin ≤ m.version && m.version ≤ i.peerMax) then 6 else if !(m.peerMin ≤ i.version && i.version ≤ m.peerMax) then 7 else 0

def Mem.image (m : Mem) (k : Nat) : BImage := m.images.getD k {}

/-- The microcode copy BOOT loads (R475). -/
def Mem.ucCopy (m : Mem) : Option Nat := if (m.image 2).accepted then some 0 else if (m.image 3).accepted then some 1 else none

/-- The slot BOOT runs (R475). -/
def Mem.runSlot (m : Mem) : Option Nat :=
  match m.ucCopy with
  | none => none
  | some u =>
    let good := fun (k : Nat) => (m.image k).accepted && listed (m.image k) (m.image (2 + u))
    let p := b2n m.optUse.prefB
    if good p then some p else if good (1 - p) then some (1 - p) else none

/-- SEC_IMG_STAT (R476); `loader` when the ROM loader runs RECOVERY. Log 138: DEDUCED. -/
def imgStat (m : Mem) (loader : Bool) : Nat :=
  let slot := if loader then none else m.runSlot
  let u := m.ucCopy.map fun k => m.image (2 + k)
  let uc := match m.ucCopy with
    | some 0 => 0
    | some _ => 8
    | none => imageStatus (m.image 2)
  16 * (match slot with
      | some k => k + 1
      | none => 0)
    + 256 * b2n (match slot with
      | some k => k ≠ b2n m.optUse.prefB
      | none => false)
    + 4096 * slotStatus (m.image 0) u + 65536 * slotStatus (m.image 1) u + 2 ^ 20 * uc

/-- TICK and LAST_SEQ of an area, and whether its header is valid (R373). -/
def PfArea.tick (a : PfArea) : Nat := u48 a.header 4
def PfArea.lastSeq (a : PfArea) : Nat := u32 a.header 10
def PfArea.valid (a : PfArea) : Bool :=
  a.header.length = 64 && u32 a.header 0 = pfMagic && u16 a.header 62 = (crc16 (a.header.take 62)).toNat

/-- The power-fail area taken at start-up: the newest valid one, by its place (R373). -/
def Mem.areaAt (m : Mem) : Option Nat :=
  let tickOf := fun (k : Nat) => ((m.areas.getD k none).filter PfArea.valid).map PfArea.tick
  match tickOf 0, tickOf 1 with
  | some a, some b => if a < b then some 1 else some 0
  | some _, none => some 0
  | none, some _ => some 1
  | none, none => none
def Mem.area (m : Mem) : Option PfArea := m.areaAt.bind fun k => m.areas.getD k none

/-- The page entries of the newest valid area go into the event store, where it has them not already, and the other area is
erased (R373). -/
def takeArea (s : State) : State :=
  let new := ((s.mem.area.map (·.page)).getD []).filter fun v => !(s.mem.store.any fun u => u.seq = v.seq)
  let s := if new = [] then s else
    let r := program (logPage 0x07000000 8192 s) (pagesOf (32 * new.length)) s
    withMem (fun m => if r.1 then m.keepEvents new else m) r.2
  let s := (program (0x00100000 + 0x00100000 * (1 - s.mem.areaAt.getD 0)) 256 s).2
  withMem (fun m => { m with areas := tab 2 fun k => if m.areaAt = some k then m.areas.getD k none else none }) s

/-- First SEQ after a start (R372). -/
def firstSeq (m : Mem) : Nat :=
  let res := m.resLog.getLast?
  let area := m.area
  match area, res with
  | some a, some r => if r.tick < a.tick then (a.lastSeq + 1) % 2 ^ 32 else (r.res + 1) % 2 ^ 32
  | some a, none => (a.lastSeq + 1) % 2 ^ 32
  | none, some r => (r.res + 1) % 2 ^ 32
  | none, none => match m.store.getLast? with
    | some v => (v.seq + 1) % 2 ^ 32
    | none => 0

/-- Domain time a manager or standalone module takes (R29, R32): one more than the newest tick that flash names.
Log 91: DEDUCED. -/
def bootTick (s : State) : Nat :=
  let ts := (s.mem.area.toList.flatMap fun a => a.tick :: a.ckpt.toList.map (·.tick)) ++ (s.mem.resLog.map (·.tick)) ++ (s.mem.store.map (·.tick)) ++ (s.rec_.decim.map (·.tick))
  if ts = [] then 0 else ts.foldl max 0 + 1

/-- The stores at start-up: the power-fail area, and a fresh reservation, without which no SEQ is covered (R372, R373); and domain time,
but for TEST (R29). -/
def bootStores (test : Bool) (s : State) : State :=
  let m := s.mem
  let q := firstSeq m
  let keeps := s.sys.role < 2 && !test
  let t := if keeps then bootTick s else 0
  let off := ((m.area.bind (·.ckpt)).map (·.offset)).getD 0
  let s := takeArea s
  let r := program (logPage 0x00300000 256 s) 1 s
  let s := r.2
  let m := if r.1 then s.mem.reserveSeq { res := (q + 65535) % 2 ^ 32, tick := t }
    else { s.mem with res := some { res := (q + 2 ^ 32 - 1) % 2 ^ 32, tick := t } }
  { s with
    mem := { m with lastSeq := (q + 2 ^ 32 - 1) % 2 ^ 32 }
    dec := { s.dec with seq := q }
    time := if keeps then { s.time with num := t, domain := true, offset := off, off := Pair.of (tc 64 off) } else s.time }

/-- The engines after their self-tests (R257). -/
def testEngines (passA passB : Bool) (s : State) : State :=
  withEng (fun g => { g with
    a := if passA then 1 else 6, b := if passA then (if passB then 0 else 6) else if passB then 1 else 6, dutyB := !passA && passB }) s

/-- ENGINE_FAILED, with its cause, for an engine that failed its self-test. -/
def failedEngines (passA passB : Bool) (s : State) : State :=
  let s := if passA then s else addCause (6, 0) (raiseModes 0x8B 4 4 s.eng.word 0 s)
  if passB then s else addCause (6, 1) (raiseModes 0x8B 4 4 s.eng.word 0 s)

/-- What the module itself brings to the checks of an image (R384). -/
def State.stageCtx (s : State) : StageCtx :=
  let i := s.mem.image s.mem.running
  { dev := s.dom.dev, plMin := i.plMin, plMax := i.plMax, hostAttached := s.hosted, boostB := s.sys.boostB }

/-- The committed and the staged image from flash (R394): a committed one that still passes the checks of R384; it
opens the epoch history of R347. -/
def bootEpoch (s : State) : State :=
  let pick := fun (i : Nat) => match s.cfg.slots.getD i none with
    | some e => some e
    | none => s.cfg.slots.getD (i + 1) none
  let c := (pick 0).filter (recheckOk s.stageCtx)
  { s with
    cfg := { s.cfg with e := c.getD {}, has := c.isSome, staged := pick 2, since := 0 }
    dom := { s.dom with hist := (c.map fun e => (e.seq, 0)).toList } }

/-- The mode BOOT leaves for (Table: Mode transitions). The table gives several triggers and no order among them: RECOVERY goes before
SAFE-HOLD, and that before TEST. Log 145: DESIGN CHOICE. -/
def bootMode (s : State) (passA passB : Bool) : Nat :=
  if s.sys.variant = 2 || s.mem.runSlot.isNone then 5
  else if !passA && !passB then 12
  else if s.sys.variant = 3 then 6
  else if s.sys.variant = 1 || !s.cfg.has || !s.cfg.e.mode.autoRun then 7
  else 8

/-- The field side as BOOT leaves it: released once the link has delivered its 16 strobes (R462), with the committed routes still
to be made in the first Lull (R81) and SAFE staged, but for TEST. Log 144: DEDUCED. -/
def bootField (test : Bool) (s : State) : State :=
  let e := s.cfg.e
  withField (fun f =>
    let f := { f with dead := false, staged := if test then offOutputs else safeOutputs e (s.tick + 1) s.dec, stagedFull := true }
    if test then f else pinTags e { f with route := e.route, makeDue := s.cfg.has }) s

/-- Both inductances, in nH, lie in 4.7 to 22 µH (R509). -/
def boostFound (swp swn : Nat) : Bool := [swp, swn].all fun l => 4700 ≤ l && l ≤ 22000

/-- BOOT_DONE. MEM_FLASH_STAT reads the replacement blocks left from now on (R368, R378). A worker whose DEV_NUM is outside 2..63 is an island from here on (R24). -/
def execBootDone (pass : Bool × Bool) (coils : Nat × Nat) (s : State) : Out :=
  ok (when_ (s.sys.mode = 4) (fun s =>
    let s := withSys (fun y => { y with boostB := boostFound coils.1 coils.2 }) s
    let st := imgStat s.mem (s.sys.variant = 2)
    let s := withMem (fun m => { m with
      imgStat := BitVec.ofNat 32 st, running := m.runSlot.getD 0, uc := (m.ucCopy.map fun k => m.image (2 + k)).getD {}
      reserve := BitVec.ofNat 16 (min 65535 (Config.flashReserve - m.retired.toNat)) }) s
    let low := s.mem.reserve.toNat < 16 && (15, 0) ∉ s.causes
    let s := { s with causes := s.causes ++ (if low then [(15, 0)] else []) }
    let s := testEngines pass.1 pass.2 (bootEpoch s)
    let m := bootMode s pass.1 pass.2
    if m = 5 then withSys (fun y => { y with mode := 5, prevMode := 4 }) (withField (fun f => { f with dead := false }) s)
    else
      let s := bootStores (m = 6) s
      let s := setMode m s
      let s := if bit st 8 then raise 0xA4 st 0 s else s
      let s := failedEngines pass.1 pass.2 s
      let s := if s.badDev then becomeIsland 0x10 s else s
      let s := if m = 8 then enterSync s else s
      let s := refreshPanels (bootField (m = 6) s)
      s) s)

end Sys2Proof.Machine
end

