-- ==== Sys2Proof/Machine/Dma.lean ====
section
/-! DEFINITION. The DMA channels and their windows, and what they carry to and from other modules (12_dma_and_stores R355 to R367). -/

namespace Sys2Proof.Machine

/-! Address words and windows (R355, R356, R368). -/

def adrSpace (a : Nat) : Nat := bits a 63 60
def adrDev (a : Nat) : Nat := bits a 59 54
def adrOfs (a : Nat) : Nat := bits a 53 0

/-- The word is one R355 gives: no reserved SPACE, DEV zero but for the remote spaces. -/
def adrOk (a : Nat) : Bool := adrSpace a ≤ 4 && (3 ≤ adrSpace a || adrDev a = 0)

/-- Partitions of Table: Flash map as (offset, end). -/
def flashParts : List (Nat × Nat) :=
  [(0, 0x00100000), (0x00100000, 0x00300000), (0x00300000, 0x00400000), (0x00400000, 0x02400000), (0x02400000, 0x04400000),
   (0x04400000, 0x04C00000), (0x04C00000, 0x06C00000), (0x06C00000, 0x07000000), (0x07000000, 0x09000000),
   (0x09000000, 0x0B000000), (0x0B000000, 0x80000000)]

/-- Readable DRAM regions of Table: Host DMA windows: record, panel frame planes, DMA windows. Log 85: DEDUCED. -/
def dramReads : List (Nat × Nat) := [(0, 0x3C000000), (0x3D100000, 0x3D900000), (0x3E900000, 0x3F900000)]
def dramWrites : List (Nat × Nat) := [(0x3E900000, 0x3F900000)]
/-- Where CFG_STAGE and IMG_STAGE from a manager put their image (R365): the region of configuration images, and the image slots
and microcode copies. -/
def loadDram : List (Nat × Nat) := [(0x3D900000, 0x3E900000)]
def loadFlash : List (Nat × Nat) := [(0x00400000, 0x02400000), (0x02400000, 0x04400000), (0x04400000, 0x04C00000)]

def inOne (l : List (Nat × Nat)) (ofs len : Nat) : Bool := l.any fun r => r.1 ≤ ofs && ofs + len ≤ r.2

/-- The whole range lies in one region of the host's windows; a remote one is checked by the other module. -/
def windowOk (write : Bool) (a len : Nat) (s : State) : Bool :=
  match adrSpace a with
  | 0 => adrOfs a + len ≤ 2 ^ 54
  | 1 => inOne (if write then dramWrites else dramReads) (adrOfs a) len
  | 2 => !write && inOne flashParts (adrOfs a) len
  | _ => s.dom.serving

/-- A remote address names a device that is not admitted (R367). -/
def adrLost (a : Nat) (s : State) : Bool := 3 ≤ adrSpace a && !s.isAdmitted (adrDev a)

/-! Channels (R357 to R364). -/

def chanOff (c : Nat) : Nat := 0x2000 + 64 * c
/-- Bytes not yet read. -/
def Chan.unread (x : Chan) : Nat := x.len - x.buf.length

def Chan.fromRemote (x : Chan) : Bool := 3 ≤ adrSpace x.src.applied
def Chan.toRemote (x : Chan) : Bool := 3 ≤ adrSpace x.dst.applied

/-- The channel has work: it runs, waits for its turn or has a buffer to write out. -/
def Chan.works (x : Chan) : Bool := x.state = 1 || x.state = 2 || (x.state = 3 && x.buf ≠ [])

/-- R361: of the channels with work, those of the highest PRIO are served and the others are pre-empted. -/
def grant (s : State) : State :=
  let top := s.mem.chans.foldl (fun m c => if c.2.works then max m c.2.prio else m) 0
  withMem (fun m => { m with chans := m.chans.map fun c =>
    (c.1, if c.2.state = 1 || c.2.state = 2 then { c.2 with state := if c.2.prio = top then 1 else 2 } else c.2) }) s

/-- No channel of higher PRIO has work. -/
def granted (c : Nat) (s : State) : Bool := s.mem.chans.all fun y => !y.2.works || y.2.prio ≤ (s.chan c).prio

/-- Bytes of the DRAM data space from an offset. Log 12: DESIGN CHOICE. -/
def dramBytes (ofs n : Nat) (s : State) : List Byte := tab n fun i => tget 0 s.mem.dram (ofs + i)

def dramWrite (ofs : Nat) (bs : List Byte) (s : State) : State :=
  withMem (fun m => { m with dram := bs.zipIdx.foldl (fun t x => tset 0 t (ofs + x.2) x.1) m.dram }) s

/-- What the source of a channel gives next: the DMA windows hold their own bytes, every other source gives what it is
read as. -/
def sourceBytes (x : Chan) (data : List Byte) (s : State) : List Byte :=
  if adrSpace x.src.applied = 1 && inOne dramWrites (adrOfs x.src.applied) data.length then dramBytes (adrOfs x.src.applied) data.length s
  else data

/-- Class-2 bulk frames of this module; BLACKOUT sends none (R485). -/
def sendBulk (dev : Nat) (b : Bulk) (s : State) : State := if s.sys.mode = 11 then s else send (.bulk dev b) s

/-- The address word at the responder (Table: Bulk payload). -/
def bulkAddr (a : Nat) : Nat := (adrSpace a - 2) * 2 ^ 60 + adrOfs a

/-- OP 3 frames of up to 1 024 bytes for data written at `a` (R366). -/
def writeFrames (chan xid a : Nat) (data : List Byte) : List Bulk :=
  tab (ceilDiv data.length 1024) fun i =>
    { op := 3, chan := chan, xid := xid, addr := bulkAddr a, ofs := 1024 * i, data := slice data (1024 * i) 1024 }

/-- Bytes leave a channel for its destination on this module; what a firmware channel moves is put there by its service.
Log 86: DESIGN CHOICE. -/
def deliver (c : Nat) (bs : List Byte) (s : State) : State :=
  let a := (s.chan c).dst.applied
  if c = 12 then withMem (fun m => { m with fetches := m.fetches.modify 0 fun f => { f with data := f.data ++ bs } }) s
  else if 12 < c then s
  else match adrSpace a with
    | 0 => hostWrite (adrOfs a) bs s
    | 1 => dramWrite (adrOfs a) bs s
    | _ => s

/-- Channel `c` reads `data` and then writes its first `n` bytes out; FILL stays within the 2 048 of the staging buffer
(R358, R359). Bytes for another module leave it as they are acknowledged (`takeAck`). -/
def progress (c : Nat) (data : List Byte) (n : Nat) (s : State) : State :=
  let x := s.chan c
  let d := sourceBytes x (data.take (if x.toRemote then min x.unread (2048 - x.buf.length) else x.unread)) s
  let all := x.buf ++ d
  let n := if x.toRemote then 0 else max (min n all.length) (all.length - 2048)
  let s := deliver c (all.take n) s
  setChan c { x with src := x.src.put (x.src.applied + d.length), dst := x.dst.put (x.dst.applied + n), buf := all.drop n,
                     len := x.len - n, done := x.done + n } s

/-- What a row tells of the bytes read counts only where the source is this module's and not yet known. -/
def Chan.seen (x : Chan) (data : List Byte) : List Byte := if x.fromRemote || x.feed ≠ [] then [] else data

/-! Images for other modules (R365, R383). -/

/-- Credits in flight to a device (R308). -/
def Peer.inFlight (p : Peer) : Nat := (p.s + 256 - p.ret % 256) % 256

/-- The manager refused the device within the last 20 000 ticks (R338). -/
def State.refusedLately (s : State) (d : Nat) : Bool := match (s.peer d).refused with
  | some t => s.tick ≤ t + 20000
  | none => false

/-- The commands a refused module accepts (R317). -/
def refusedOp (op : Nat) : Bool := op ∈ [0x02, 0x10, 0x70, 0x71]

/-- The device is not admitted but takes the commands of R317. -/
def State.takesRefused (s : State) (d op : Nat) : Bool :=
  refusedOp op && s.refusedLately d && ((s.peer d).refusedFor = 4 || (s.peer d).refusedFor = 5)

/-- A command frame to another device: one credit and the next CSEQ; a refused device has no books and takes CSEQ 0.
Log 72: DEDUCED. -/
def sendCommand (c : Cmd) (o : Origin) (s : State) : State :=
  let d := c.dev.toNat
  let p := s.peer d
  let c := { c with apply := if c.apply = 0 then BitVec.ofNat 48 s.earliest else c.apply }
  let c := { c with crc := crc16 ((c.words.map (leBytes 4)).flatten) }
  if s.isAdmitted d then
    if 16 ≤ p.inFlight then finish o c 4 0 0 0 s.tick s
    else
      let q := (p.s + 1) % 256
      send (.command d q c) (setPeer d { p with s := q, flights := p.flights ++ [{ cseq := q, cmd := c, origin := o, sent := s.tick }] } s)
  else if s.takesRefused d c.op.toNat then
    send (.command d 0 c) (setPeer d { p with flights := p.flights ++ [{ cseq := 0, cmd := c, origin := o, sent := s.tick }] } s)
  else finish o c 3 0 0 0 s.tick s

/-- Address word at its module where an image goes. Log 137: DESIGN CHOICE. -/
def loadAddr (c : Cmd) : Nat :=
  if c.op = 0x10 then 2 ^ 60 + 0x3D900000 else 2 * 2 ^ 60 + (if c.arg1.getLsbD 0 then 0x04400000 else 0x00400000)

/-- Channel 13 takes up the first image that waits, from its start. -/
def nextLoad (s : State) : State :=
  match s.mem.loads with
  | [] => s
  | (c, _) :: _ =>
    let x := s.chan 13
    setChan 13 { x with
      src := x.src.put (4096 * c.arg4.toNat), dst := x.dst.put (loadAddr c + 2 * 2 ^ 60 + 2 ^ 54 * c.dev.toNat), len := c.buf.length, done := 0,
      buf := [], feed := c.buf, failing := 0, err := 0, byCmd := true, state := 1, prio := 1, bulk := none } s

/-- Channel 13 has ended in `st`: with its image carried the command itself leaves; without, it completes as a DMA_START would
(R364). -/
def endLoad (st status : Nat) (s : State) : State :=
  match s.mem.loads with
  | [] => s
  | (c, o) :: l =>
    let s := withMem (fun m => { m with loads := l }) s
    nextLoad (if st = 5 then sendCommand c o s else finish o c status 0 0 0 s.tick s)

/-! Results of other modules (R338, R348, R351, R365). -/

/-- Host address of a buffer word (R336). -/
def bufAddr (w : Word) : Nat := 4096 * w.toNat

/-- Bytes of a whole SURVEY result (R93). -/
def surveyLen (pins pairs : Nat) : Nat := 16 + 20 * pins + 16 * pairs

/-- Bytes that a completed command left for the host: a survey's records, the chunks of a pull, the entries of a reread. -/
def resultLen (x : Compl) : Nat :=
  if x.op = 0x60 then x.b
  else if x.op = 0x61 then 32 * x.a
  else if x.op = 0x30 && (x.status ≤ 1 || x.a ≠ 0) then surveyLen x.a x.b
  else 0

/-- The address word at its module where the result of an opcode is read: record, event store, DMA windows. Log 137: DESIGN CHOICE. -/
def resultAddr (op : Nat) : Nat := if op = 0x60 then 2 ^ 60 else if op = 0x61 then 2 * 2 ^ 60 + 0x07000000 else 2 ^ 60 + 0x3E900000

/-- What a command that came in a frame has for the host stays here until the manager reads it. -/
def giveResult (q : Nat) (bs : List Byte) (s : State) : State :=
  withMem (fun m => { m with results := ((q, bs) :: m.results.filter fun x => x.1 ≠ q).take 16 }) s

/-- Channel 12 takes up the first result that waits. -/
def nextFetch (s : State) : State :=
  match s.mem.fetches with
  | [] => s
  | f :: _ =>
    let x := s.chan 12
    if x.busy then s
    else setChan 12 { x with
      src := x.src.put (resultAddr f.compl.op + 2 * 2 ^ 60 + 2 ^ 54 * f.dev)
      dst := x.dst.put (if f.compl.op = 0x61 then (s.ring (f.flight.cmd.arg3.toNat % 64)).base.applied else bufAddr f.flight.cmd.arg4)
      len := resultLen f.compl, done := 0, buf := [], feed := [], failing := 0, err := 0, byCmd := true, state := 1, prio := 1, bulk := none
      xid := (x.xid / 256 * 256 + 256 + f.flight.cseq) % 65536 } s

/-- Table: REC descriptor. -/
def recWords (dev tag first blocks ofs len crc flags : Nat) (last : Bool) : List Nat :=
  [tag % 65536 + 65536 * (dev % 64), first % 2 ^ 32, first / 2 ^ 32 % 65536 + 65536 * (blocks % 65536), ofs, len, crc,
   b2n last + 2 * (flags % 2) + 4 * (flags / 2 % 2)]

/-- An entry to REC ring `n`, waiting while it is full. -/
def postRec (n : Nat) (ws : List Nat) (s : State) : State :=
  let r := s.ring n
  if r.type ≠ 3 || !r.live then s
  else if r.waitE = [] && r.room then ringWrite n ws s else setRing n { r with waitE := r.waitE ++ [ws] } s

/-- A replayed event to EVT ring `n` alone, behind what waits there (R348). -/
def postReplay (n : Nat) (ws : List Nat) (s : State) : State :=
  let r := s.ring n
  if r.type ≠ 2 || !r.live then s
  else if r.waitE = [] && r.room then ringWrite n ws s else setRing n { r with waitE := r.waitE ++ [ws] } s

/-- The chunks of a pull as they were read: each to the next 64-byte boundary of the host's buffer, with its REC entry (R351). -/
def recEntries (j : Cmd) (aborted : Bool) : Nat → Nat → List Byte → State → State
  | 0, _, _, s => s
  | k + 1, ofs, bs, s =>
    let hd := bs.take 32
    let len := 32 + u32 hd 16
    if bs.length < 32 || bs.length < len then s
    else
      let s := postRec (j.arg2.toNat / 65536 % 64)
        (recWords (u8 hd 6) j.tag.toNat (u48 hd 8) (u16 hd 14) ofs len (u32 hd 20) (u8 hd 7) (bs.length = len && !aborted))
        (hostWrite (bufAddr j.arg4 + ofs) (bs.take len) s)
      recEntries j aborted k (ceilDiv (ofs + len) 64 * 64) (bs.drop len) s

/-- A completion frame's command completes (R338), its result with it: a survey's records, a pull's chunks and REC entries, a reread
when its last entry is written. -/
def completeFlight (f : Flight) (x : Compl) (data : List Byte) (s : State) : State :=
  let c := f.cmd
  let n := c.arg3.toNat % 64
  let s := if c.op = 0x30 then (if data = [] then s else hostWrite (bufAddr c.arg4) data s)
    else if c.op = 0x60 then recEntries c (x.status = 5) (data.length / 32) 0 data s
    else (List.range (data.length / 32)).foldl (fun s i => postReplay n (tab 7 fun k => u32 data (32 * i + 4 * k) ||| (if k = 2 then 2 ^ 25 else 0)) s) s
  if c.op = 0x61 && data ≠ [] && (s.ring n).waitE ≠ [] then
    let j : Job := { cmd := c, origin := f.origin, start := x.used, late := x.status = 1 }
    { s with hif := { s.hif with rereads := s.hif.rereads ++
        [{ ring := n, left := (s.ring n).waitE.length, own := data.length / 32, job := j, status := x.status, count := x.a, lost := x.b }] } }
  else finish f.origin c x.status x.detail x.a x.b x.used s

/-- Channel 12 has ended in `st`: with the result read the command completes as it did there; without, as a DMA_START would (R364). -/
def endFetch (st status : Nat) (s : State) : State :=
  match s.mem.fetches with
  | [] => s
  | f :: l =>
    let s := withMem (fun m => { m with fetches := l }) s
    nextFetch (if st = 5 then completeFlight f.flight f.compl f.data s else finish f.flight.origin f.flight.cmd status 0 0 0 f.compl.used s)

/-! The end of a transfer, and what a channel does next. -/

/-- A transfer ends in DONE, ERROR or ABORTED: a completion for a DMA_START, a message for a register-started one (R364); a
DMA_PAUSE that waits completes ABORTED (R362). -/
def endCore (c st err status : Nat) (s : State) : State :=
  let x := s.chan c
  let s := setChan c { x with state := st, err := err, job := none, pauser := none, bulk := none, feed := [], failing := 0 } s
  let s := finishOpt x.pauser 5 x.len 0 s
  let s := match x.job with
    | some j => finishJob j status x.done 0 s
    | none => if !x.byCmd && x.irq && x.busy then sendMsix x.vector s else s
  if c = 13 then endLoad st status s else if c = 12 then endFetch st status s else s

/-- Status of a DMA_START by ERR (R364). -/
def errStatus (err : Nat) : Nat := if err = 2 then 8 else if err = 3 then 3 else 5

/-- Status of a DMA_START that ends DONE. -/
def Chan.doneStatus (x : Chan) : Nat := match x.job with
  | some j => j.done
  | none => 0

/-- A channel that has written its last byte is DONE; one whose read failed ends in ERROR once its buffer is out (R364). -/
def settleEnd (c : Nat) (s : State) : State :=
  let x := s.chan c
  if !(1 ≤ x.state && x.state ≤ 3) then s
  else if x.len = 0 then endCore c 5 0 x.doneStatus s
  else if x.failing ≠ 0 && x.buf = [] && x.feed = [] then endCore c 6 x.failing (errStatus x.failing) s
  else s

/-- It takes more from a source whose bytes it knows; so does one that a failed read leaves them to write. -/
def Chan.fills (x : Chan) : Bool := (x.state = 1 || (x.state = 3 && x.failing ≠ 0)) && x.toRemote && x.feed ≠ [] && x.buf.length < 2048
/-- Its buffer goes to another module: 2 048 bytes, or fewer where no more will come. -/
def Chan.writes (x : Chan) : Bool :=
  (x.state = 1 || x.state = 3) && x.toRemote && x.buf ≠ [] && (2048 ≤ x.buf.length || x.unread = 0 || x.state = 3 || x.failing ≠ 0 || x.fromRemote)
/-- It asks another module for the next bytes. -/
def Chan.asks (x : Chan) : Bool := x.state = 1 && x.fromRemote && x.unread ≠ 0 && x.failing = 0 && x.buf = []
/-- Its buffer holds bytes for this module that it has only to write out: from another module (R361), or read before a failure (R364). -/
def Chan.holds (x : Chan) : Bool :=
  !x.toRemote && x.buf ≠ [] && ((x.state = 1 && (x.fromRemote || x.failing ≠ 0)) || (x.state = 3 && x.failing ≠ 0))

/-- The channel can act now: it is granted and nothing of it is outstanding (R366). -/
def wants (c : Nat) (s : State) : Bool :=
  let x := s.chan c
  x.bulk.isNone && (x.fills || x.writes || x.asks || x.holds) && granted c s

/-- The next write to another module: the buffer, in OP 3 frames. A part of a whole 1 024 bytes is closed by an empty frame, so that
the responder knows it for the last (R366). Log 59: DEDUCED. -/
def sendWrite (c : Nat) (s : State) : State :=
  let x := s.chan c
  let a := x.dst.applied
  let fs := writeFrames c x.xid a x.buf
  let fs := if x.buf.length = 1024 then fs ++ [{ op := 3, chan := c, xid := x.xid, addr := bulkAddr a, ofs := 1024, data := [] }] else fs
  let s := setChan c { x with xid := (x.xid + 1) % 65536,
                              bulk := some { xid := x.xid, dev := adrDev a, frames := fs, len := x.buf.length, sent := s.tick } } s
  fs.foldl (fun s f => sendBulk (adrDev a) f s) s

/-- The next read request of a channel with a remote source: at most 2 048 bytes (R366). The XID of channel 12 keeps the CSEQ of the
command whose result it reads in its low byte. Log 137: DESIGN CHOICE. -/
def requestRead (c : Nat) (s : State) : State :=
  let x := s.chan c
  let n := min 2048 x.unread
  let f : Bulk := { op := 1, chan := c, xid := x.xid, addr := bulkAddr x.src.applied, rlen := n }
  let d := adrDev x.src.applied
  sendBulk d f (setChan c { x with xid := (x.xid + (if c = 12 then 256 else 1)) % 65536, bulk := some { xid := x.xid, dev := d, frames := [f], len := n, sent := s.tick } } s)

/-- A channel that can act takes its turn of at most 2 048 bytes (R361): it fills its buffer or writes it out here, and then has one
write or one request under way. -/
def pump (c : Nat) (s : State) : State :=
  let s := withMem (fun m => { m with turn := c }) s
  let x := s.chan c
  let s := if x.fills then
      let k := min x.feed.length (2048 - x.buf.length)
      let s := progress c (x.feed.take k) 0 s
      setChan c { s.chan c with feed := x.feed.drop k } s
    else if x.holds then settleEnd c (progress c [] x.buf.length s)
    else s
  let x := s.chan c
  if x.writes then sendWrite c s else if x.asks then requestRead c s else s

/-- The channel numbers in the order of their turns, from the one after the channel served last (R361). -/
def turns (last : Nat) : List Nat := tab 16 fun i => (last + 1 + i) % 16

/-- The channels are granted by PRIO, and of those that can act the next in turn does, until none can; fuel bounds how often. -/
def settle : Nat → State → State
  | 0, s => s
  | k + 1, s =>
    let s := grant s
    match (turns s.mem.turn).find? fun c => wants c s with
    | none => s
    | some c => settle k (pump c s)

def arbitrate (s : State) : State := settle 512 s

def endChan (c st err status : Nat) (s : State) : State := arbitrate (endCore c st err status s)

/-- The buffer is discarded and SRC set back by FILL (R363). -/
def Chan.discard (x : Chan) : Chan := { x with src := x.src.put (x.src.applied - x.buf.length), buf := [], feed := [] }

/-- R363. -/
def abortChan (c err : Nat) (s : State) : State := endChan c 7 err 5 (setChan c (s.chan c).discard s)

/-- Another module does not take what is written to it: the buffer cannot be written out, and the transfer ends in ERROR (R364,
R367). Log 86: DESIGN CHOICE. -/
def loseChan (c err : Nat) (s : State) : State := endChan c 6 err (errStatus err) (setChan c (s.chan c).discard s)

/-- R364: what was read is written out when the channel is granted, then ERROR; to another module that takes its acknowledgements. -/
def failChan (c err : Nat) (s : State) : State :=
  let x := s.chan c
  if x.buf ≠ [] || (x.toRemote && x.feed ≠ []) then arbitrate (setChan c { x with failing := err, bulk := if x.toRemote then x.bulk else none } s)
  else endChan c 6 err (errStatus err) s

/-- A transfer starts from SRC, DST and LEN (R360). While the DMA block is being reset its first transfer gets an error response
(R465). Log 134: DEDUCED. With PAUSE already set it starts DRAINING. Log 164: DESIGN CHOICE. -/
def startChan (c : Nat) (s : State) : State :=
  let x := s.chan c
  let s := setChan c { x with state := if x.pause then 3 else 1, done := 0, buf := [], feed := [], failing := 0, err := 0, bulk := none } s
  if s.inReset 0x10 then failChan c 2 s else arbitrate s

/-! Firmware channels (R357). Log 137: DESIGN CHOICE. -/

/-- Firmware channel `c` begins to move `len` bytes. -/
def useFw (c src dst len : Nat) (s : State) : State :=
  let x := s.chan c
  arbitrate (setChan c { x with src := x.src.put src, dst := x.dst.put dst, len := len, done := 0, err := 0, byCmd := true, state := 1,
                                prio := if c < 14 then 1 else 2 } s)

/-- Firmware channel `c` has moved all it had to. -/
def endFw (c : Nat) (s : State) : State :=
  let x := s.chan c
  if x.state = 1 || x.state = 2 then
    endChan c 5 0 0 (setChan c { x with src := x.src.put (x.src.applied + x.len), dst := x.dst.put (x.dst.applied + x.len),
                                        done := x.done + x.len, len := 0 } s)
  else s

/-- An image is carried to its module before its command (R365, R383). -/
def loadFor (c : Cmd) (o : Origin) (s : State) : State :=
  let s' := withMem (fun m => { m with loads := m.loads ++ [(c, o)] }) s
  if s.mem.loads = [] then arbitrate (nextLoad s') else s'

/-- The RW fields of DMA_CH_CTL written (Table: DMA_CH_CTL). -/
def Chan.ctl (x : Chan) (v : Word) : Chan :=
  { x with pause := v.getLsbD 29, irq := v.getLsbD 22, vector := bits v.toNat 21 16, prio := bits v.toNat 5 4 }

/-- A host write of DMA_CH_CTL of channel `c`; a firmware channel's slot is locked (R357). -/
def ctlWrite (c : Nat) (f : State → State) (s : State) : State :=
  regWrite (chanOff c) (fun s => if 12 ≤ c then violate 3 true false (chanOff c) s else f s) s

/-- What R356, R360 and R367 ask of a transfer before its first byte moves. Log 84: DEDUCED. -/
def transferOk (x : Chan) (s : State) : Bool :=
  windowOk false x.src.applied x.len s && windowOk true x.dst.applied x.len s && !adrLost x.src.applied s && !adrLost x.dst.applied s

/-- DMA_CH_START (R358, R360): START is locked while the channel is busy. -/
def execDmaChStart (c : Fin 16) (v : Word) (s : State) : Out :=
  ok (when_ (v.getLsbD 31 && !v.getLsbD 30) (ctlWrite c (fun s =>
    let x := s.chan c
    if x.busy || x.len = 0 || !adrOk x.src.applied || !adrOk x.dst.applied then violate 3 true false (chanOff c) s
    else if !transferOk x s then violate 6 true false (chanOff c) s
    else startChan c (setChan c { x.ctl v with byCmd := false, job := none } s))) s)

/-- The abort of R363, in any STATE except IDLE. -/
def abortAt (c : Nat) (v : Word) (data : List Byte) (wr : Nat) (s : State) : State :=
  let x := s.chan c
  if x.state = 0 then setChan c (x.ctl v) s
  else
    let s := if x.busy then progress c (x.seen data) wr s else s
    abortChan c 0 (setChan c { (s.chan c).ctl v with pause := false } s)

def execDmaChAbort (c : Fin 16) (v : Word) (data : List Byte) (wr : Nat) (s : State) : Out :=
  ok (when_ (v.getLsbD 30) (ctlWrite c (abortAt c v data wr)) s)

/-- R362: a RUNNING or PREEMPTED channel drains. -/
def pauseChan (c : Nat) (data : List Byte) (wr : Nat) (s : State) : State :=
  let x := s.chan c
  if x.state = 1 || x.state = 2 then
    let s := progress c (x.seen data) wr s
    arbitrate (setChan c { s.chan c with pause := true, state := 3, feed := if x.failing = 0 then [] else x.feed } s)
  else arbitrate (setChan c { x with pause := true } s)

/-- DMA_CH_PAUSE_SET: an ABORT written with it takes precedence (R363). -/
def execDmaChPauseSet (c : Fin 16) (v : Word) (data : List Byte) (wr : Nat) (s : State) : Out :=
  ok (when_ (v.getLsbD 29 && !v.getLsbD 31) (ctlWrite c (fun s =>
    if v.getLsbD 30 then abortAt c v data wr s
    else pauseChan c data wr (setChan c { (s.chan c).ctl v with pause := (s.chan c).pause } s))) s)

/-- R362: a PAUSED channel goes on from SRC, a DRAINING one goes back to RUNNING and its pause is cancelled. -/
def resumeChan (c : Nat) (s : State) : State :=
  let x := s.chan c
  if x.state = 3 || x.state = 4 then
    arbitrate (finishOpt x.pauser 5 x.len 0 (setChan c { x with pause := false, state := 1, pauser := none } s))
  else arbitrate (setChan c { x with pause := false } s)

def execDmaChPauseClear (c : Fin 16) (v : Word) (data : List Byte) (wr : Nat) (s : State) : Out :=
  ok (when_ (!v.getLsbD 29 && !v.getLsbD 30 && !v.getLsbD 31) (ctlWrite c (fun s =>
    let s := setChan c { (s.chan c).ctl v with pause := (s.chan c).pause } s
    let s := if (s.chan c).state = 3 then progress c ((s.chan c).seen data) wr s else s
    resumeChan c s)) s)

/-- DMA_DRAIN_DONE (R362): the buffer is written out when the channel is granted, and one that is empty needs no grant; PAUSED, or DONE
after the last byte. A read still
outstanding is dropped: SRC is exact without it. Bytes for another module have to be acknowledged first. -/
def execDmaDrainDone (c : Fin 16) (s : State) : Out :=
  let x := s.chan c
  ok (when_ (x.state = 3 && (granted c s || x.buf = []) && x.failing = 0 && (!x.toRemote || x.buf = [])) (fun s =>
    let s := progress c [] x.buf.length s
    let x := s.chan c
    if x.len = 0 then endChan c 5 0 x.doneStatus s
    else arbitrate (finishOpt x.pauser ((x.pauser.map (·.done)).getD 0) x.len 0 (setChan c { x with state := 4, pauser := none, bulk := none } s))) s)

/-- DMA_TRANSFER_DONE (R359, R364): the rest is read and written, to another module as it takes it (R366). -/
def execDmaTransferDone (c : Fin 16) (data : List Byte) (s : State) : Out :=
  let x := s.chan c
  ok (when_ (x.state = 1 && !x.fromRemote && x.feed = []) (fun s =>
    if 12 ≤ c.val then when_ (s.mem.loads = [] || c.val ≠ 13) (endFw c) s
    else if data.length ≠ x.unread then s
    else if x.toRemote then arbitrate (setChan c { x with feed := data } s)
    else
      let s := progress c data (x.buf.length + data.length) s
      endChan c 5 0 (s.chan c).doneStatus s) s)

/-- The ERR that a failed read of a source can have (R364): 1 of host memory, 2 of a store, 3 or 2 of a remote module. -/
def errFits (src err : Nat) : Bool :=
  if adrSpace src = 0 then err = 1 else err = 2 || (err = 3 && 3 ≤ adrSpace src)

/-- DMA_READ_FAILURE (R364). -/
def execDmaReadFailure (c : Fin 16) (data : List Byte) (err : Fin 3) (s : State) : Out :=
  let x := s.chan c
  ok (when_ (1 ≤ x.state && x.state ≤ 3 && data.length ≤ x.unread && errFits x.src.applied (err + 1)) (fun s =>
    if x.toRemote then failChan c (err + 1) (setChan c { x with feed := if x.fromRemote then [] else data } s)
    else failChan c (err + 1) (progress c (x.seen data) 0 s)) s)

/-- An island refused for LEVEL or EPOCH (R317). -/
def State.refusedIsland (s : State) : Bool := s.dom.island && s.dom.refused && (s.dom.islandCause = 4 || s.dom.islandCause = 5)

end Sys2Proof.Machine
end

