-- ==== Sys2Proof/Machine/Hif.lean ====
section
/-! DEFINITION. The descriptor rings (11_host_rings R325 to R335, R343, R346, R354) and the HIF reset (R322, R396, R462). -/

namespace Sys2Proof.Machine

/-! Ring set-up (R325 to R327). -/

def ringOff (n : Nat) : Nat := 0x1000 + 32 * n

/-- The fields of HIF_RING_CFG but ENABLE, as a slot stores them; TYPE is fixed on rings 0 and 1, and RSV bits of LINK
are ignored. -/
def Ring.cfg (r : Ring) (n : Nat) (v : Word) : Ring :=
  let x := v.toNat
  let ty := if n < 2 then n else bits x 2 0
  { r with link := if ty = 0 then bits x 27 22 else if ty = 2 then bits x 25 22 else 0, vector := bits x 21 16,
           log2 := bits x 12 8, type := ty }

/-- The cases in which a write that sets ENABLE is refused (R326). -/
def ringRefused (n : Nat) (r : Ring) (s : State) : Bool :=
  r.log2 < 4 || 16 < r.log2 || 4 < r.type || r.base.applied = 0 || r.shadow.applied = 0
    || (2 ≤ n && !((s.ring 0).enable && (s.ring 1).enable))
    || (r.type = 0 && (r.link = 0 || !(s.ring r.link).enable || (s.ring r.link).type ≠ 1))
    || (r.type = 2 && r.link = 0)

/-- RING_ENABLE. While ENABLE is set every other field is locked (R490). Log 68: DEDUCED. -/
def execRingEnable (n : Fin 64) (v : Word) (s : State) : Out :=
  ok (when_ (v.getLsbD 31) (regWrite (ringOff n + 8) (fun s =>
    let r := s.ring n
    let q := r.cfg n v
    if r.enable then (if q = r then s else violate 3 true false (ringOff n + 8) s)
    else if ringRefused n q s then setRing n { q with cfgErr := true } s
    else
      let s := setRing n { q with enable := true, active := s.master, cfgErr := false, pidx := 0, cidx := 0, unsig := 0, firstAt := none,
                                  waitE := [], dropped := 0, wbDue := false, waitC := if n.val ∈ s.hif.heldBack then r.waitC else [] } s
      { s with hif := { s.hif with heldBack := s.hif.heldBack.filter (· ≠ n.val) } })) s)

/-- An EVT_REREAD completes when its last event is written (R348): `k` more entries of ring `n` are written. -/
def countReread (n k : Nat) (s : State) : State :=
  let l := s.hif.rereads.map fun x => if x.ring = n then { x with left := x.left - k } else x
  let s := { s with hif := { s.hif with rereads := l.filter fun x => x.left ≠ 0 } }
  (byRing ((l.filter fun x => x.left = 0).map fun x => (x.job.origin.place, x))).foldl (fun s x => finishJob x.job x.status x.count x.lost s) s

/-- EVT_REREADs whose ring stops end ABORTED. -/
def dropRereads (p : Nat → Bool) (s : State) : State :=
  let l := s.hif.rereads.filter fun x => p x.ring
  (byRing (l.map fun x => (x.job.origin.place, x))).foldl (fun s x => finishJob x.job 5 x.count x.lost s)
    { s with hif := { s.hif with rereads := s.hif.rereads.filter fun x => !p x.ring } }

/-- A ring stops at once (R327): nothing waiting is written to it. The completions that wait for room in a CPL ring (R343), or for
the end of the tick, are discarded too.
Log 161: DESIGN CHOICE. -/
def stopRing (n : Nat) (s : State) : State :=
  let s := { s with hif := { s.hif with arisen := s.hif.arisen.filter fun x => x.1 ≠ n } }
  dropRereads (· = n) (setRing n { s.ring n with enable := false, active := false, waitC := [], waitE := [], dropped := 0, unsig := 0, firstAt := none,
                                                 wbDue := false } s)

/-- A ring stops, and with a CPL ring every CMD ring linked to it. -/
def disableRing (n : Nat) (s : State) : State :=
  let linked := (List.range 64).filter fun m =>
    m ≠ n && (s.ring n).type = 1 && (s.ring m).enable && (s.ring m).type = 0 && (s.ring m).link = n
  linked.foldl (fun s m => stopRing m s) (stopRing n s)

/-- RING_DISABLE: a write with ENABLE clear. On an enabled ring it clears ENABLE and the locked fields stay. -/
def execRingDisable (n : Fin 64) (v : Word) (s : State) : Out :=
  ok (when_ (!v.getLsbD 31) (regWrite (ringOff n + 8) (fun s =>
    if (s.ring n).enable then disableRing n s else setRing n { (s.ring n).cfg n v with cfgErr := false } s)) s)

/-! Indices (R328 to R332). -/

/-- Completions that wait, written while there is room (R343). -/
def releaseC : Nat → Nat → State → State
  | 0, _, s => s
  | k + 1, n, s =>
    let r := s.ring n
    match r.waitC with
    | c :: t => if r.room then releaseC k n (ringWrite n (complWords c) (setRing n { r with waitC := t } s)) else s
    | [] => s

/-- Entries that wait, written in order while there is room (R346). -/
def releaseE : Nat → Nat → State → State
  | 0, _, s => s
  | k + 1, n, s =>
    let r := s.ring n
    match r.waitE with
    | e :: t => if r.room then releaseE k n (ringWrite n e (setRing n { r with waitE := t } s)) else s
    | [] => s

/-- COMPLETION_RELEASE. -/
def execCompletionRelease (n : Fin 64) (s : State) : Out :=
  ok (when_ ((s.ring n).type = 1 && (s.ring n).live) (releaseC (s.ring n).waitC.length n) s)

/-- EVENT_WRITE_RESUME. -/
def execEventWriteResume (n : Fin 64) (s : State) : Out :=
  ok (when_ ((s.ring n).type = 2 && (s.ring n).live) (fun s =>
    let before := (s.ring n).waitE.length
    let s := releaseE before n s
    countReread n (before - (s.ring n).waitE.length) s) s)

/-- The ring after doorbell X, when X is valid (R329). -/
def Ring.ring (r : Ring) (x : Nat) : Option Ring :=
  if r.type = 0 then
    if sub32 x r.pidx ≤ r.size && sub32 x r.cidx ≤ r.size then some { r with pidx := x } else none
  else if sub32 x r.cidx ≤ r.size && sub32 r.pidx x ≤ r.size then some { r with cidx := x } else none

/-- DOORBELL (R324, R329): a write at 8n + 4, one for a disabled ring and an index out of range are violations. A record
entry that waits for room on a REC ring goes with its doorbell. Log 70: DEDUCED. -/
def execDoorbell (n : Fin 64) (upper : Bool) (x : Word) (s : State) : Out :=
  ok (when_ s.path (fun s =>
    let r := s.ring n
    if upper then violate 5 true true (8 * n + 4) s
    else if !r.enable then violate 5 true true (8 * n) s
    else match r.ring x.toNat with
      | some q =>
        let s := setRing n q s
        if q.type = 3 then releaseE q.waitE.length n s else s
      | none => violate 5 true true (8 * n) s) s)

/-! Interrupts (R334). -/

/-- A ring's message is due: MOD_COUNT entries, or MOD_TICKS after the tick of the first. -/
def Ring.due (r : Ring) (tick : Nat) : Bool :=
  r.enable && 0 < r.unsig && (max 1 (r.mod.toNat / 65536) ≤ r.unsig
    || (r.mod.toNat % 65536 ≠ 0 && (match r.firstAt with
      | some t => t + r.mod.toNat % 65536 ≤ tick
      | none => false)))

/-- MSIX_MESSAGE: rings that share the vector and fall due together send one message. Entries wait while MSI-X is not enabled. -/
def execMsixMessage (n : Fin 64) (s : State) : Out :=
  ok (when_ (s.hif.pci.msixOn && (s.ring n).due s.tick) (fun s =>
    let v := (s.ring n).vector
    let both := (List.range 64).filter fun m => (s.ring m).due s.tick && (s.ring m).vector = v
    sendMsix v (both.foldl (fun s m => setRing m { s.ring m with unsig := 0, firstAt := none } s) s)) s)

/-- R354 under set A: every ring disabled, RING_STATE, one message on vector 0; completions of decoded commands wait,
those that an error before has held among them. -/
def ringStateError (s : State) : State :=
  let cpls := (List.range 64).filter fun n => (s.ring n).enable && (s.ring n).type = 1
  let s := (List.range 64).foldl (fun s n =>
    let r := s.ring n
    setRing n { r with enable := false, active := false, waitE := [], unsig := 0, firstAt := none, wbDue := false } s) s
  let held := s.hif.heldBack ++ cpls.filter (· ∉ s.hif.heldBack)
  sendMsix 0 (dropRereads (fun _ => true) (raise 0x9E 0 0 { s with hif := { s.hif with heldBack := held } }))

/-! HIF reset. -/

/-- A ring slot after a HIF reset (R322, R396): ENABLE, ACTIVE and the indices clear, the pairs return to reset.
Log 69: DEDUCED. -/
def Ring.hifReset (r : Ring) : Ring :=
  { r with base := {}, shadow := {}, enable := false, active := false, pidx := 0, cidx := 0, unsig := 0, firstAt := none,
           waitC := [], waitE := [], dropped := 0, wbDue := false }

/-- Channels with host memory end with ERR 4 and their completions are discarded (R364). Log 83: DEDUCED. -/
def stopHostDma (s : State) : State :=
  (List.range 16).foldl (fun s c =>
    let x := s.chan c
    if x.busy && (adrSpace x.src.applied = 0 || adrSpace x.dst.applied = 0) then
      let s := abortChan c 4 (setChan c { x with job := none, pauser := none, irq := false } s)
      let s := if c = 14 then modPanel 0 (fun p => { p with pendHost := none }) (modPanel 1 (fun p => { p with pendHost := none }) s) else s
      setChan c { s.chan c with irq := x.irq } s
    else s) (withMem (fun m => { m with loads := [], fetches := [] }) s)

/-- What a HIF reset does (R322, R354, R364, R498), the configuration space among it. Log 99: PRESUMED. -/
def hifReset (s : State) : State :=
  let s := (List.range 64).foldl (fun s n => setRing n (s.ring n).hifReset s) s
  let s := stopHostDma s
  { s with
    hif := { s.hif with heldBack := [], rereads := [], arisen := [], pci := {} }
    sec := { s.sec with resp := List.replicate 16 0 } }

/-- HIF_RESET on a module that attaches a host: 0 PE_PERST_N low, which keeps HIF in reset, 1 a Function Level Reset, 2 D3hot, 3 loss of
the link. -/
def execHifReset (cause : Fin 4) (s : State) : Out :=
  ok (when_ (s.hosted && 4 ≤ s.sys.mode) (fun s =>
    let s := hifReset s
    if cause = 0 then
      withSys (fun y => { y with perstHigh := false }) { s with hif := { s.hif with released := false } }
    else if cause = 2 then { s with hif := { s.hif with pci := { s.hif.pci with d3 := true } } }
    else s) s)

/-- PE_PERST_N_RELEASE (R462): the HOST domain is released once CORE is. -/
def execPePerstNRelease (s : State) : Out :=
  ok (withSys (fun y => { y with perstHigh := true })
    { s with hif := { s.hif with released := s.hif.released || (s.hosted && 4 ≤ s.sys.mode) } })

end Sys2Proof.Machine
end

