-- ==== Sys2Proof/Machine/Rs.lean ====
section
/-! DEFINITION. The guard code of the memories (12_dma_and_stores R375, R376; 01_module_and_domain R20): a systematic
Reed–Solomon code over GF(2⁸) with 32 data bytes and 8 check bytes. Field elements and bytes are numbers below 256. -/

namespace Sys2Proof.Machine

/-! The field GF(2⁸) with polynomial 0x11D and α = 2. -/

/-- Times α. -/
def gfTwice (a : Nat) : Nat := if a < 128 then 2 * a else (2 * a).xor 0x11D

/-- The product, bit by bit of the second factor. -/
def gfMulGo : Nat → Nat → Nat → Nat
  | 0, _, _ => 0
  | n + 1, a, b => (if b % 2 = 1 then a else 0).xor (gfMulGo n (gfTwice a) (b / 2))
def gfMul (a b : Nat) : Nat := gfMulGo 8 a b

def gfPow (a : Nat) : Nat → Nat
  | 0 => 1
  | n + 1 => gfMul a (gfPow a n)

/-- The inverse of a non-zero element: its 254th power. -/
def gfInv (a : Nat) : Nat :=
  let sq := fun x => gfMul x x
  let a2 := sq a
  let a4 := sq a2
  let a8 := sq a4
  let a16 := sq a8
  let a32 := sq a16
  let a64 := sq a32
  gfMul a2 (gfMul a4 (gfMul a8 (gfMul a16 (gfMul a32 (gfMul a64 (sq a64))))))

/-! Polynomials, the highest coefficient first. -/

/-- Sum of two coefficient lists that start at the same power. -/
def polyAdd : List Nat → List Nat → List Nat
  | [], q => q
  | p, [] => p
  | a :: p, b :: q => a.xor b :: polyAdd p q

/-- g(x) = (x − α⁰)(x − α¹) … (x − α⁷). -/
def rsGen : List Nat := (List.range 8).foldl (fun g i => polyAdd (g ++ [0]) (0 :: g.map (gfMul (gfPow 2 i)))) [1]

/-- One data byte shifted into the 8 coefficients of the remainder. -/
def rsShift (r : List Nat) (d : Nat) : List Nat :=
  let q := (r.headD 0).xor d
  polyAdd (r.drop 1 ++ [0]) ((rsGen.drop 1).map (gfMul q))

/-- Check bytes: the coefficients of d(x) · x⁸ mod g(x), that of x⁷ first. -/
def rsCheck (data : List Nat) : List Nat := data.foldl rsShift (List.replicate 8 0)

/-- A stored block: 32 data bytes and their check bytes. Data byte i is the coefficient of x^(39 − i). -/
def rsBlock (data : List Nat) : List Nat := data ++ rsCheck data

/-! Reading a block (R376). -/

/-- Value of a polynomial at a point. -/
def polyAt (p : List Nat) (x : Nat) : Nat := p.foldl (fun a c => (gfMul a x).xor c) 0

/-- The values of a block at α⁰ to α⁷: all zero for a codeword. -/
def syndromes (w : List Nat) : List Nat := (List.range 8).map fun i => polyAt w (gfPow 2 i)

def isCodeword (w : List Nat) : Bool := (syndromes w).all (· = 0)

/-- The search for the error locator: the locator so far and the one before, lowest coefficient first, its degree, the
steps since, and the discrepancy then. -/
structure Locator where
  c : List Nat := [1]
  b : List Nat := [1]
  l : Nat := 0
  m : Nat := 1
  d : Nat := 1

/-- One syndrome taken in (the algorithm of Berlekamp and Massey). -/
def Locator.step (ss : List Nat) (z : Locator) (n : Nat) : Locator :=
  let d := (List.range (z.l + 1)).foldl (fun a i => a.xor (gfMul (z.c.getD i 0) (ss.getD (n - i) 0))) 0
  if d = 0 then { z with m := z.m + 1 }
  else
    let k := gfMul d (gfInv z.d)
    let c := polyAdd z.c (List.replicate z.m 0 ++ z.b.map (gfMul k))
    if 2 * z.l ≤ n then { c := c, b := z.c, l := n + 1 - z.l, m := 1, d := d } else { z with c := c, m := z.m + 1 }

/-- Powers of x at which the locator says that a byte is bad. -/
def badPowers (z : Locator) : List Nat := (List.range 40).filter fun j => polyAt z.c.reverse (gfInv (gfPow 2 j)) = 0

/-- What is wrong with the byte at power `j`: X · Ω(X⁻¹) / Λ'(X⁻¹). -/
def errorAt (ss : List Nat) (z : Locator) (j : Nat) : Nat :=
  let x := gfPow 2 j
  let y := gfInv x
  let omega := (List.range 8).map fun n => (List.range (n + 1)).foldl (fun a i => a.xor (gfMul (z.c.getD i 0) (ss.getD (n - i) 0))) 0
  let deriv := (List.range (z.c.length - 1)).map fun i => if i % 2 = 0 then z.c.getD (i + 1) 0 else 0
  gfMul x (gfMul (polyAt omega.reverse y) (gfInv (polyAt deriv.reverse y)))

/-- A normal read of a block: the codeword within 4 bytes of it with the number of bytes corrected, none when there is no
such codeword. A block with 5 to 8 bad bytes that lies near another codeword is miscorrected. -/
def rsRead (w : List Nat) : Option (List Nat × Nat) :=
  let ss := syndromes w
  if ss.all (· = 0) then some (w, 0)
  else
    let z := (List.range 8).foldl (Locator.step ss) {}
    let js := badPowers z
    let v := js.foldl (fun v j => v.set (39 - j) ((v.getD (39 - j) 0).xor (errorAt ss z j))) w
    if z.l ≤ 4 && js.length = z.l && isCodeword v then some (v, z.l) else none

/-- A read in detect-only mode corrects nothing. -/
def rsDetect (w : List Nat) : Option (List Nat × Nat) := if isCodeword w then some (w, 0) else none

end Sys2Proof.Machine
end

