-- ==== Sys2Proof/Machine/Store.lean ====
section
/-! DEFINITION. The guarded stores (12_dma_and_stores R371, R372, R375 to R378; 09_redundancy R287): corrected and
uncorrectable errors, scrubbing, the event page buffer and the SEQ reservation. -/

namespace Sys2Proof.Machine

/-- What a read of a block gives (R376): the codeword and the bytes corrected, none when it is uncorrectable. The memories'
contents are the state's fields; their check bytes follow from them, and damage comes with the bytes read.
Log 132: DESIGN CHOICE. -/
def readBlock (detectOnly : Bool) (block : List Byte) : Option (List Nat × Nat) :=
  let w := block.map (·.toNat)
  if detectOnly then rsDetect w else rsRead w

/-- A store that is read back in detect-only mode (R376). -/
def Store.readBack : Store → Bool
  | .checkpoint _ => true
  | x => x.inFlash

/-- The memory of a store, as the scrubber goes through them: 0 SRAM, 1 DRAM, 2 flash. -/
def Store.memory : Store → Nat
  | .pointContext _ | .enginePrivate => 0
  | .reserve => 3
  | x => if x.inFlash then 2 else 1

/-- The bytes that a normal read corrects in a block, 0 for none or where the code fails. -/
def BadBlock.fixed (b : BadBlock) : Nat := match readBlock false b.block with
  | some r => r.2
  | none => 0

/-- ECC_CORRECTED (R376, R378): a block that the code corrects is counted. It keeps its errors until the scrubber repairs it.
Log 132: DESIGN CHOICE. -/
def execEccCorrected (x : Store) (b : BadBlock) (s : State) : Out :=
  let at_ := b.addr.toNat
  ok (when_ (4 ≤ s.sys.mode && b.fixed ≠ 0) (withMem fun m => { m with
    eccCor := true, corrCnt := min (m.corrCnt + 1) 0xFFFFFFFF
    worn := (x, at_, b.fixed) :: m.worn.filter fun w => !(w.1 = x && w.2.1 = at_) }) s)

/-- A tick record block is lost; an audit across it ends (R62, R287). -/
def loseBlock (t : Nat) (s : State) : State :=
  let s := raise 0x86 (t % 2 ^ 32) 0 { s with rec_ := { s.rec_ with lost := t :: s.rec_.lost } }
  match s.eng.audit with
  | some a => if a.k < t + a.span && t ≤ a.k then abandonAudit s else s
  | none => s

/-- The entry of the queue that the damaged block held leaves as under R226. -/
def loseQueueEntry (addr : Nat) (s : State) : State :=
  let q := s.view.queue
  let k := Config.entryAt 2 addr % max 1 q.length
  match q[k]? with
  | some i =>
    let s := modDec (fun d => { d with queue := d.queue.eraseIdx k }) s
    addCause (11, 0) (match i with
      | .ev v => raise 0x85 v.seq 0 s
      | .act _ => raise 0x85 0 1 s)
  | none => s

/-- A damaged plane ends the operation with STORE_ERROR, and the panel is redrawn from its image of record. -/
def losePlane (i : Nat) (s : State) : State :=
  let p := s.panel i
  let s := finishOpt (p.op.bind (·.job)) 8 0 0 s
  if p.st = 9 then s
  else setPanel i { (s.panel i).redraw (s.cfg.e.panelSet i) with op := none, st := 0 } s

/-- An EVT_REREAD that still has the lost event of this module to write ends with STORE_ERROR once the events before it are written
(R348); the entries of others keep their order. -/
def cutReread (seq : Nat) (s : State) (x : Reread) : State :=
  let r := s.ring x.ring
  let before := x.left - x.own
  match ((r.waitE.take x.left).drop before).findIdx? fun w => bit (w.getD 2 0) 25 && w.getD 3 0 = seq && bits (w.getD 0 0) 13 8 = s.dom.dev with
  | none => s
  | some k =>
    let gone := x.left - before - k
    let s := setRing x.ring { r with waitE := r.waitE.take (before + k) ++ r.waitE.drop x.left } s
    let y := { x with left := before + k, own := k, status := 8, count := x.count - gone }
    let others := s.hif.rereads.map fun z => if z = x then y else if z.ring = x.ring && x.left < z.left then { z with left := z.left - gone } else z
    if k = 0 then finishJob y.job y.status y.count y.lost { s with hif := { s.hif with rereads := others.filter (· ≠ y) } }
    else { s with hif := { s.hif with rereads := others } }

/-- A stored event is lost (Table: Store codes); the last EVT_REREAD first, so that those before it keep their places. -/
def loseStored (addr : Nat) (s : State) : State :=
  let k := Config.entryAt 9 addr % max 1 s.mem.store.length
  match s.mem.store[k]? with
  | none => s
  | some v => s.hif.rereads.reverse.foldl (cutReread v.seq) (withMem (fun m => { m with store := m.store.eraseIdx k }) s)

/-- What an uncorrectable block does, by store and set (R287, R519, Table: Store codes). Log 24: DESIGN CHOICE. -/
def storeEffect (x : Store) (addr : Nat) (s : State) : State :=
  let setB := s.mem.optUse.setB
  match x with
  | .record t => loseBlock t s
  | .checkpoint t => loseCkpt t s
  | .ringState => if setB then beginReset 5 s else ringStateError s
  | .queueEntry => loseQueueEntry addr s
  | .streamRole => withDom (fun d => { d with role := none }) s
  | .panelPlane i => losePlane i s
  | .dmaWindow c => if (s.chan c).busy then failChan c 2 s else s
  | .firmware => if setB then beginReset 7 s else if 7 ≤ s.sys.mode && s.sys.mode ≤ 11 then enterMode 12 s else s
  | .pointContext p =>
    if s.decides then (if setB then beginReset 5 s else if s.eng.duty = 1 || s.eng.duty = 2 then takeover s else s)
    else { s with dec := s.dec.setPt p startedPoint }
  | .enginePrivate => if s.eng.duty = 1 || s.eng.duty = 2 then takeover s else s
  | .option c => withMem (fun m => { m with opts := m.opts.set c [] }) s
  | .powerFail a => withMem (fun m => { m with areas := m.areas.set a none }) s
  | .image k => withMem (fun m => { m with images := m.images.modify k fun i => { i with hash := false } }) s
  | .config k => { s with cfg := { s.cfg with slots := s.cfg.slots.set k none } }
  | .panelRecord i k => modPanel i (fun p => { p with images := p.images.modify k fun m => { m with ok := false } }) s
  | .eventStore => loseStored addr s
  | .decimated => { s with rec_ := { s.rec_ with decim := s.rec_.decim.eraseIdx (Config.entryAt 10 addr % max 1 s.rec_.decim.length) } }
  | .reserve => addCause (15, 0) s

/-- UNCORRECTABLE_ERROR: the code finds no codeword for the block, or in a detect-only read-back any bad byte. -/
def execUncorrectableError (x : Store) (b : BadBlock) (s : State) : Out :=
  ok (when_ (4 ≤ s.sys.mode && s.sys.mode ≤ 12 && (x = .reserve || (readBlock (b.detectOnly && x.readBack) b.block).isNone))
    (fun s => storeEffect x b.addr.toNat (storeError x b.addr.toNat s)) s)

/-- Ticks between two passes of the scrubber (R377): SRAM 256, DRAM 24 h, flash 7 days. -/
def scrubEvery : Fin 3 → Nat
  | 0 => 256
  | 1 => 86400000
  | 2 => 604800000

/-- The scrubber's next pass may end: it is the first, or its time has run since the last. -/
def State.scrubDue (s : State) (which : Fin 3) : Bool :=
  ((s.mem.scrubAt.find? fun x => x.1 = which.val).map (·.2)).all fun t => t + scrubEvery which ≤ s.tick || s.tick < t

/-- The blocks that a pass corrects: what it found, and what was read wrong before and still is. -/
def scrubbed (which : Fin 3) (found : List (Store × BadBlock)) (worn : List (Store × Nat × Nat)) : List (Store × Nat × Nat) :=
  let new := (found.filter fun x => x.1.memory = which.val && x.2.fixed ≠ 0).map fun x => (x.1, x.2.addr.toNat, x.2.fixed)
  new ++ worn.filter fun w => w.1.memory = which.val && !(new.any fun y => y.1 = w.1 && y.2.1 = w.2.1)

/-- A flash block's erase block is copied to a fresh one and remapped (R377), its data address unchanged. -/
def moveBlock (s : State) (w : Store × Nat × Nat) : State :=
  withMem (fun m => { m with moves := m.moves + 1 }) (program (w.2.1 / 262144 * 262144) 64 s).2

/-- SCRUB_PASS (R377): 0 SRAM, in the Lull after the census check; 1 DRAM and 2 flash, whose completed passes are counted. A block that
it corrects is counted and, in SRAM and DRAM, rewritten in place with what it holds, which a write by another requester has changed
before or after; in flash one with 2 bytes or more is moved, and one with a single byte stays as it is. Log 132: DESIGN CHOICE. -/
def execScrubPass (x : Scrub) (s : State) : Out :=
  ok (when_ (4 ≤ s.sys.mode && s.sys.mode ≤ 12 && s.scrubDue x.which && (x.which ≠ 0 || s.ticking && 3 ≤ s.time.phase)) (fun s =>
    let l := scrubbed x.which x.found s.mem.worn
    let s := withMem (fun m => { m with
      scrubAt := (x.which.val, s.tick) :: m.scrubAt.filter fun y => y.1 ≠ x.which.val
      eccCor := m.eccCor || l ≠ [], corrCnt := min (m.corrCnt + l.length) 0xFFFFFFFF
      worn := (m.worn.filter fun w => w.1.memory ≠ x.which.val) ++ (if x.which = 2 then l.filter fun w => w.2.2 < 2 else [])
      dramPasses := if x.which = 1 then m.dramPasses + 1 else m.dramPasses
      flashPasses := if x.which = 2 then m.flashPasses + 1 else m.flashPasses }) s
    if x.which = 2 then (l.filter fun w => 2 ≤ w.2.2).foldl moveBlock s else s) s)

/-- A record of the SEQ reservation log (R372). -/
def SeqRes.bytes (r : SeqRes) : List Byte :=
  let body := leBytes 4 r.res ++ leBytes 6 r.tick ++ leBytes 4 0
  body ++ leBytes 2 (crc16 body).toNat

/-- EVENT_PAGE_FLUSH (R371): a full page of 128 entries, or what it holds 1 000 ticks after its first entry. -/
def execEventPageFlush (s : State) : Out :=
  let late := match s.mem.pageAt with
    | some t => t + 1000 ≤ s.tick
    | none => false
  ok (when_ (4 ≤ s.sys.mode && s.sys.mode ≤ 12 && (128 ≤ s.mem.page.length || late)) flushPage s)

/-- SEQ_RESERVATION (R372): when half of the reservation is used the next record is programmed; it counts once verified, and one
that is not retires its block. -/
def execSeqReservation (verified : Bool) (s : State) : Out :=
  ok (match s.mem.res with
    | some r =>
      when_ (6 ≤ s.sys.mode && s.sys.mode ≤ 12 && sub32 (r.res + 1) s.dec.seq ≤ 32768)
        (if verified then reserveNext else retireBlock 0x00300000) s
    | none => s)

end Sys2Proof.Machine
end

