-- ==== Sys2Proof/Machine/Bulk.lean ====
section
/-! DEFINITION. Bulk frames at the responder and at the requester (12_dma_and_stores R365 to R367). -/

namespace Sys2Proof.Machine

/-! Bulk frames (R365 to R367). -/

/-- Bytes of a store that another module reads: the DMA windows as written, every other region as the part holds it.
Log 13: DESIGN CHOICE. -/
def storeBytes (a n : Nat) (s : State) : List Byte :=
  if adrSpace a = 1 && inOne dramWrites (adrOfs a) n then dramBytes (adrOfs a) n s
  else tab n fun i => Config.storeByte s.free (a + i)

/-- The acknowledgement of a write up to the end of a frame (R366). -/
def ackOf (b : Bulk) : Bulk :=
  { op := 4, chan := b.chan, xid := b.xid, addr := b.addr, ofs := b.ofs, rlen := (b.ofs + b.data.length - 1) % 2048 + 1 }

/-- The regions that a write of another module's channel reaches: an image for CFG_STAGE or IMG_STAGE by channel 13, else the
windows. -/
def writeRegion (chan space : Nat) : List (Nat × Nat) :=
  match space with
  | 1 => if chan = 13 then loadDram else dramWrites
  | 2 => if chan = 13 then loadFlash else []
  | _ => []

/-- Write data taken in: an image is put together as it comes, from the start of its region. -/
def takeWrite (b : Bulk) (s : State) : State :=
  let at_ := adrOfs b.addr + b.ofs
  if b.chan ≠ 13 then dramWrite at_ b.data s
  else match (loadDram ++ loadFlash).find? fun r => r.1 ≤ at_ && at_ < r.2 with
    | some r => withMem (fun m =>
        let k := at_ - r.1
        { m with load := (m.load.take k ++ List.replicate (k - m.load.length) 0) ++ b.data }) s
    | none => s

/-- The store that holds a byte another module may read (R368, Table: Store codes); the SEQ reservation log and the reserved partition
have no store code. Which block of the record or area of it an address lies in is free. Log 147: DESIGN CHOICE. -/
def storeAt (a : Nat) (s : State) : Option Store :=
  let o := adrOfs a
  if adrSpace a = 1 then
    some (if o < 0x3C000000 then .record (((s.rec_.blocks[Config.entryAt 1 o % max 1 s.rec_.blocks.length]?).map (·.tick)).getD (2 ^ 48))
      else if o < 0x3D500000 then .panelPlane 0 else if o < 0x3D900000 then .panelPlane 1 else .dmaWindow 15)
  else if o < 0x00100000 then some (.option (if o < 0x00040000 then 0 else 1))
  else if o < 0x00300000 then some (.powerFail (if o < 0x00200000 then 0 else 1))
  else if o < 0x00400000 then none
  else if o < 0x04400000 then some (.image (if o < 0x02400000 then 0 else 1))
  else if o < 0x04C00000 then some (.image (if o < 0x04800000 then 2 else 3))
  else if o < 0x06C00000 then some (.config (Fin.ofNat 8 ((o - 0x04C00000) / 0x00400000)))
  else if o < 0x07000000 then some (.panelRecord (Fin.ofNat 2 ((o - 0x06C00000) / 0x00200000)) (Fin.ofNat 2 ((o - 0x06C00000) / 0x00100000)))
  else if o < 0x09000000 then some .eventStore
  else if o < 0x0B000000 then none
  else some .decimated

/-- An uncorrectable block that a read of an address meets is reported and has its effect (R376, R378). -/
def readFails (a : Nat) (s : State) : State := match storeAt a s with
  | some x => storeEffect x (adrOfs a) (storeError x (adrOfs a) s)
  | none => s

/-- What the manager's channel 12 asks for: the result of the command whose CSEQ the XID carries, from its start (R365). -/
def resultBytes (b : Bulk) (s : State) : Option (List Byte) :=
  if b.chan ≠ 12 then none
  else match s.mem.results.find? fun x => x.1 = b.xid % 256 with
    | some x =>
      let at_ := [2 ^ 60, 2 * 2 ^ 60 + 0x07000000, 2 ^ 60 + 0x3E900000].filter fun z => z ≤ b.addr && b.addr - z + b.rlen ≤ x.2.length
      at_.head?.map fun z => slice x.2 (b.addr - z) b.rlen
    | none => none

/-- Read data in OP 2 frames of up to 1 024 bytes (R366). -/
def readFrames (b : Bulk) (d : List Byte) : List Bulk :=
  tab (ceilDiv b.rlen 1024) fun i => { op := 2, chan := b.chan, xid := b.xid, addr := b.addr, ofs := 1024 * i, data := slice d (1024 * i) 1024 }

/-- What a responder answers to a read request or write data (R366). A store error found by its reads is free, and is reported (R378).
Log 59: DEDUCED. -/
def serveBulk (b : Bulk) (s : State) : List Bulk × State :=
  let a := b.addr
  let err := fun (st : Nat) => ([{ op := 5, chan := b.chan, xid := b.xid, status := st, addr := a, ofs := b.ofs }] : List Bulk)
  if b.op = 1 then
    if b.rlen = 0 || 2048 < b.rlen then (err 5, s)
    else match resultBytes b s with
      | some d => (readFrames b d, s)
      | none =>
        if b.chan = 12 || !adrOk a || adrSpace a = 0 || 2 < adrSpace a || !windowOk false a b.rlen s then (err 5, s)
        else if Config.storeBad s.free a then (err 8, readFails a { s with free := s.free + 1 })
        else (readFrames b (storeBytes a b.rlen s), { s with free := s.free + 1 })
  else
    let at_ := adrOfs a + b.ofs
    if adrDev a ≠ 0 || 1024 < b.data.length || !inOne (writeRegion b.chan (adrSpace a)) at_ b.data.length then (err 5, s)
    else
      let last := b.data.length < 1024 || (b.ofs + b.data.length) % 2048 = 0
      (if last then [ackOf b] else [], takeWrite b s)

/-- Channel 15 serves the other module (R357): what it moves for a request. Log 137: DESIGN CHOICE. -/
def serviceOf (src : Nat) (b : Bulk) (s : State) : State :=
  let there := 3 * 2 ^ 60 + 2 ^ 54 * (src % 64)
  if b.op = 1 then fwDone 15 b.addr there b.rlen s else fwDone 15 there (b.addr + b.ofs) b.data.length s

/-- The responder's side: a request already served is answered again and not acted on; write data that is sent again with no
acknowledgement yet was a last part, and is acknowledged. -/
def respond (src : Nat) (b : Bulk) (s : State) : State :=
  let key := (src, b.chan)
  match s.mem.served.find? fun x => x.1 = key && x.2.1 = b.xid && x.2.2.1 = b.ofs with
  | some x =>
    let again := x.2.2.2 = [] && b.op = 3 && !(s.mem.served.any fun y => y.1 = key && y.2.1 = b.xid && b.ofs < y.2.2.1)
    (if again then [ackOf b] else x.2.2.2).foldl (fun s f => sendBulk src f s) s
  | none =>
    let z := serveBulk b s
    let z := if z.1.any fun f => f.op = 5 then z else (z.1, serviceOf src b z.2)
    let s := withMem (fun m => { m with served := (key, (b.xid, b.ofs, z.1)) :: m.served.filter fun x => !(x.1 = key && x.2.1 ≠ b.xid) }) z.2
    z.1.foldl (fun s f => sendBulk src f s) s

/-- Data of a read request at the requester: written out as it comes, or held in the buffer of a channel that is pre-empted or
drains (R361, R362), or that goes on to another module. -/
def takeRead (c : Nat) (b : Bulk) (r : BulkReq) (s : State) : State :=
  if b.ofs ≠ r.got || r.len < r.got + b.data.length then s
  else
    let x := s.chan c
    let s := progress c b.data (if x.state = 1 then x.buf.length + b.data.length else 0) s
    let got := r.got + b.data.length
    arbitrate (settleEnd c (setChan c { s.chan c with bulk := if got = r.len then none else some { r with got := got } } s))

/-- The acknowledgement of a write: its bytes are written out (R359, R366). -/
def takeAck (c : Nat) (r : BulkReq) (s : State) : State :=
  let x := s.chan c
  arbitrate (settleEnd c (setChan c { x with
    bulk := none, buf := x.buf.drop r.len, dst := x.dst.put (x.dst.applied + r.len), len := x.len - r.len, done := x.done + r.len } s))

/-- The request is a write. -/
def BulkReq.isWrite (r : BulkReq) : Bool := r.frames.any fun f => f.op = 3

/-- BULK_FRAME (R365 to R367). A module that is neither serving nor admitted takes only the image load and configuration
staging of R317. -/
def execBulkFrame (h : Hdr) (b : Bulk) (s : State) : Out :=
  ok (onFrame h 9 2 (fun s =>
    let x := s.chan b.chan
    let mine := match x.bulk with
      | some r => if r.xid = b.xid && r.dev = s.srcOf h then some r else none
      | none => none
    if 15 < b.chan || 1024 < b.data.length then s
    else if b.op = 1 || b.op = 3 then
      if s.dom.serving || s.dom.admitted || (s.refusedIsland && b.op = 3 && b.chan = 13)
          || (s.sys.mode = 5 && b.op = 3 && b.chan = 13) then respond h.src b s else s
    else match b.op, mine with
      | 2, some r => if x.busy && !r.isWrite then takeRead b.chan b r s else s
      | 4, some r => if x.busy && r.isWrite && b.rlen = r.len then takeAck b.chan r s else s
      | 5, some r =>
        let err := if b.status = 8 then 2 else (Config.remoteWindowErr b.status).toNat
        if !x.busy then s else if r.isWrite then loseChan b.chan err s else failChan b.chan err (setChan b.chan { x with bulk := none } s)
      | _, _ => s) s)

/-- BULK_RETRY (R367): again after 100 ticks, up to 3 times; then the remote module is lost for the transfer. -/
def execBulkRetry (c : Fin 16) (s : State) : Out :=
  ok (match (s.chan c).bulk with
    | some r =>
      if s.tick < r.sent + 100 then s
      else if r.repeats < 3 then
        let s := r.frames.foldl (fun s f => sendBulk r.dev f s) s
        setChan c { s.chan c with bulk := some { r with sent := s.tick, repeats := r.repeats + 1 } } s
      else if r.isWrite then loseChan c 3 s
      else failChan c 3 (setChan c { s.chan c with bulk := none } s)
    | none => s)

end Sys2Proof.Machine
end

