-- ==== Sys2Proof/Machine/Survey.lean ====
section
/-! DEFINITION. SURVEY and LEAD_MEASURE (03_willow_crosspoint R88 to R94): start, end, result records, classification. -/

namespace Sys2Proof.Machine

/-- Result bytes of a command reach the host's buffer; those of a worker stand ready for the manager's channel 12 (R365). -/
def toHost (j : Job) (ofs : Nat) (bs : List Byte) (s : State) : State :=
  match j.origin with
  | .frame q => giveResult q bs s
  | _ => hostWrite (bufAddr j.cmd.arg4 + ofs) bs s

/-- Completion with a status and no result. -/
def refuseJob (j : Job) (status : Nat) (s : State) : State := finishJob j status 0 0 s

/-- REJECTED with a DETAIL (R339): TICK_USED is the decoding tick. -/
def rejectJob (j : Job) (detail a b : Nat) (s : State) : State := finish j.origin j.cmd 2 detail a b j.decoded s

def Job.arg1 (j : Job) : Nat := j.cmd.arg1.toNat
def Job.arg2 (j : Job) : Nat := j.cmd.arg2.toNat
def Job.arg3 (j : Job) : Nat := j.cmd.arg3.toNat

/-! Survey plan (R89, R91). -/

/-- Selected pins of a mask, ascending. -/
def maskPins (m : Nat) : List Nat := (List.range 64).filter (bit m)

/-- Pairs of the selected pins: within one bank in scope 0, all in scope 1. -/
def surveyPairs (ps : List Nat) (scope1 : Bool) : List (Nat × Nat) :=
  ps.flatMap fun a => (ps.filter fun b => a < b && (scope1 || a / 8 = b / 8)).map fun b => (a, b)

def Job.scope1 (j : Job) : Bool := bit j.arg3 16
def Job.pfPerM (j : Job) : Nat := if j.arg3 % 65536 = 0 then 100 else j.arg3 % 65536
def Job.pairs (j : Job) : List (Nat × Nat) := surveyPairs (maskPins j.pinMask) j.scope1

/-- SURVEY at its start (R89, R90): from the next Lull on the affected cells go without a route (R17). -/
def runSurvey (j : Job) (s : State) : State :=
  if s.sys.mode ≠ 7 then refuseJob j 6 s
  else if s.field.survey.isSome || s.field.lead.isSome || s.field.surveyEnd.isSome then refuseJob j 4 s
  else withField (fun f => { f with survey := some j, survNext := some (BitVec.ofNat 64 j.pinMask) }) s

/-! Records (R93). -/

def pinForeign (x : PinSurvey) : Bool := 1000 < x.vocMv.natAbs
/-- A resistance in 10 mΩ at or above a bound; none is above 10 MΩ. -/
def atLeast (r : Option Nat) (k : Nat) : Bool := match r with
  | some v => k ≤ v
  | none => true
/-- The lower of two readings. -/
def lower (a b : Option Nat) : Option Nat := match a, b with
  | some x, some y => some (min x y)
  | some x, none => some x
  | none, y => y

/-- A capacitance counts when step 3 or 6 ran: at or above 10 kΩ. -/
def capOf (r c : Option Nat) : Option Nat := if atLeast r 1000000 then c else none

/-- Table: Survey pin record: with LSUP below 22 V when it was due, step 4 is skipped (R91). A LEN that the
16-bit field does not hold, 65 535 or more, is free too. Log 25: DESIGN CHOICE. -/
def pinRecord (pf : Nat) (x : PinSurvey) : List Byte :=
  let lsup := x.lsupMv
  let fv := pinForeign x
  let c := if fv then none else capOf x.r10m x.cPf
  let high := !fv && atLeast x.r10m 100000000
  let ins := if high && 22000 ≤ lsup then x.ins else none
  let under := match x.r10m with
    | some r => r < 100
    | none => false
  let len := match c with
    | some v => let l := (divr (10 * v) pf).toNat
      if l < 65535 then l else Config.unmeasured x.pin 1 % 65536
    | none => 0xFFFF
  leBytes 1 x.pin ++ leBytes 1 (b2n fv + 2 * b2n (!fv && x.r10m.isNone) + 4 * b2n (!fv && under) + 8 * b2n c.isSome + 16 * b2n ins.isSome
      + 32 * b2n (high && lsup < 22000))
    ++ leBytes 2 (tc 16 x.vocMv)
    ++ leBytes 4 (if fv then Config.unmeasured x.pin 0 else x.r10m.getD 0xFFFFFFFF)
    ++ leBytes 4 (c.getD 0)
    ++ leBytes 4 (match ins with
      | some (some k) => k
      | some none => 0xFFFFFFFF
      | none => 0)
    ++ leBytes 2 len ++ leBytes 2 0

/-- Step 8 ran: step 5 exceeds 100 kΩ in at least one polarity. -/
def PairSurvey.step8 (x : PairSurvey) : Bool := atLeast x.rFwd 10000001 || atLeast x.rRev 10000001
def PairSurvey.r (x : PairSurvey) : Option Nat := lower x.rFwd x.rRev
def PairSurvey.amps24 (x : PairSurvey) : Int := if x.step8 then x.i24.getD 0 else 0

/-- Resistance differs by more than 30 % between polarities or test levels: 30 % of the lower reading, a reading above 10 MΩ
counting as 10 MΩ. Log 112: DESIGN CHOICE. -/
def PairSurvey.nonlinear (x : PairSurvey) : Bool :=
  let f := x.rFwd.getD 1000000000
  let g := x.rRev.getD 1000000000
  x.levelNonlinear || 130 * min f g < 100 * max f g

def inWin (r : Option Nat) (lo hi : Nat) : Bool := match r with
  | some v => lo ≤ v && v ≤ hi
  | none => false
def ptWindow (r : Option Nat) : Bool := inWin r 7000 40000 || inWin r 70000 400000

/-- A third selected pin shows a resistance within ±2 % of the lower to both pins of the pair, in a Pt window (R94 order 4);
`all` are the pairs without a FOREIGN_V pin (R91). Log 112: DESIGN CHOICE. -/
def leadPair (all : List PairSurvey) (x : PairSurvey) : Bool :=
  let res := fun (p q : Nat) => ((all.find? fun y => (y.a = p && y.b = q) || (y.a = q && y.b = p)).bind (·.r))
  (List.range 64).any fun k => k ≠ x.a && k ≠ x.b && (match res k x.a, res k x.b with
    | some u, some v => ptWindow (some u) && ptWindow (some v) && 100 * (max u v - min u v) ≤ 2 * min u v
    | _, _ => false)

/-- Table: Survey classification. Log 49: DEDUCED. -/
def pairClass (all : List PairSurvey) (foreign : Bool) (x : PairSurvey) : Nat :=
  let r := x.r
  let below : Nat → Bool := fun k => match r with
    | some v => v < k
    | none => false
  let a24 := x.amps24
  let namur := if x.step8 then x.namurUa else none
  if foreign then 0x0F
  else if x.rFwd.isNone && x.rRev.isNone && a24.natAbs < 50 then 0x01
  else if below 50 then 0x02
  else if below 5000 && leadPair all x then 0x09
  else if x.step8 && 3500 ≤ a24.natAbs && a24.natAbs ≤ 23000 && 100 * (x.i16 - a24).natAbs ≤ 5 * a24.natAbs then 0x06
  else if inWin namur 350 6000 && x.nonlinear then 0x07
  else if inWin r 1500000 3300000 then 0x08
  else if inWin r 7000 40000 && !x.nonlinear then 0x03
  else if inWin r 70000 400000 && !x.nonlinear then 0x04
  else if inWin r 50 7000 && x.voc10u.natAbs ≤ 8000 then 0x05
  else 0x0E

/-- Table: Survey pair record. A V_OC that the signed 16-bit field does not hold, beyond ±327.67 mV, is free. Log 25: DESIGN CHOICE. -/
def pairRecord (pins : List PinSurvey) (all : List PairSurvey) (x : PairSurvey) : List Byte :=
  let foreign := fun (y : PairSurvey) => pins.any fun p => (p.pin = y.a || p.pin = y.b) && pinForeign p
  let fv := foreign x
  let cls := pairClass (all.filter fun y => !foreign y) fv x
  let c := if fv then none else capOf x.r x.cPf
  let under := match x.r with
    | some r => r < 100
    | none => false
  let key := 64 + 64 * x.a + x.b
  leBytes 1 x.a ++ leBytes 1 x.b ++ leBytes 1 cls
    ++ leBytes 1 (b2n (cls = 6 && 0 < x.amps24) + 2 * b2n (!fv && x.nonlinear) + 4 * b2n c.isSome + 8 * b2n (!fv && x.r.isNone)
        + 16 * b2n (!fv && under) + 32 * b2n fv)
    ++ leBytes 4 (if fv then Config.unmeasured key 0 else x.r.getD 0xFFFFFFFF)
    ++ leBytes 4 (c.getD 0)
    ++ leBytes 2 (if fv || 32767 < x.voc10u || x.voc10u < -32768 then Config.unmeasured key 1 else tc 16 x.voc10u)
    ++ leBytes 2 (if fv then 0 else x.amps24.natAbs)

/-- Table: Survey header, and the records. DURATION counts from the start tick to the tick in which the result is written.
Log 113: DESIGN CHOICE. -/
def surveyResult (j : Job) (now : Nat) (pins : List PinSurvey) (pairs : List PairSurvey) : List Byte :=
  leBytes 6 j.start ++ leBytes 2 pins.length ++ leBytes 2 pairs.length ++ leBytes 2 j.pfPerM ++ leBytes 2 (min (now - j.start) 65535)
    ++ leBytes 2 0 ++ (pins.map (pinRecord j.pfPerM)).flatten ++ (pairs.map (pairRecord pins pairs)).flatten

/-- SURVEY_DONE (R90, R92): every selected pin and pair measured, the routes come back in the next Lull (R17); or, ended by a change of mode, the
records finished by then, after which a change of mode through RESET goes on. -/
def execSurveyDone (pins : List PinSurvey) (pairs : List PairSurvey) (s : State) : Out :=
  let ps := pins.map (·.pin)
  let qs := pairs.map fun x => (x.a, x.b)
  ok (match s.field.survey, s.field.surveyEnd with
    | some j, _ =>
      if ps = maskPins j.pinMask && qs = j.pairs && s.field.survNext.isNone then
        let s := withField (fun f => { f with survey := none, survNext := some 0 }) s
        finishJob j j.done pins.length pairs.length (toHost j 0 (surveyResult j s.tick pins pairs) s)
      else s
    | none, some j =>
      if ps.isPrefixOf (maskPins j.pinMask) && qs.isPrefixOf j.pairs && (qs = [] || ps = maskPins j.pinMask) then
        let s := withField (fun f => { f with surveyEnd := none }) s
        dueReset (finishJob j 5 pins.length pairs.length (toHost j 0 (surveyResult j s.tick pins pairs) s))
      else s
    | none, none => s)

/-! LEAD_MEASURE (R88). -/

/-- LEAD_MEASURE at its start. An unrouted or unexcited cell is REJECTED before the mode is looked at, as R339 orders the
checks. Log 75: DEDUCED. -/
def runLeadMeasure (j : Job) (s : State) : State :=
  let r := s.field.route.cellR (j.arg1 % 64)
  if r.pPin = 0xFF || r.excSrc = 0xFF then rejectJob j 0x05 0 0 s
  else if s.sys.mode ≠ 7 then refuseJob j 6 s
  else if s.field.survey.isSome || s.field.lead.isSome || s.field.surveyEnd.isSome then refuseJob j 4 s
  else withField (fun f => { f with lead := some j, leadV := [], leadOpen := false }) s

/-- Table: LEAD_MEASURE result, from the scaled voltages of the samples and the current in nA. The table ranks no quality: of
those that hold, open, over range and unstable, `pick` names the one reported; and a mean that the field does not hold reads
as `unfit`. Log 114: DESIGN CHOICE. -/
def leadWord (v : List Int) (na : Nat) (compliance : Bool) (unfit : BitVec 16) (pick : Fin 3) : Nat :=
  let sum := v.foldl (· + ·) 0 * 10 ^ 10
  let unit : Int := 2 ^ 23 * max na 1
  let mohm := divr sum (v.length * unit)
  let spread := (v.foldl max (v.headD 0) - v.foldl min (v.headD 0)) * 10 ^ 10
  let value := if mohm < 0 || 65535 < mohm then unfit.toNat else mohm.toNat
  let hold := (if compliance then [1] else []) ++ (if 65535 * v.length * unit < sum then [2] else [])
    ++ (if 20 * unit < spread then [3] else [])
  match hold.getD (pick % max 1 hold.length) 0 with
  | 0 => value
  | 3 => 3 * 2 ^ 16 + value
  | q => q * 2 ^ 16 + 0xFFFF

/-- LEAD_MEASURE_DONE: the 64 samples that follow the 6 settling ticks are in. -/
def execLeadMeasureDone (unfit : BitVec 16) (pick : Fin 3) (s : State) : Out :=
  ok (match s.field.lead with
    | some j =>
      if s.field.leadV.length = 64 then
        let na := iexcNa (s.field.route.iexcCur (s.field.route.cellR (j.arg1 % 64)).excSrc)
        finishJob j j.done (leadWord s.field.leadV na s.field.leadOpen unfit pick) 0 (withField (fun f => { f with lead := none, leadV := [], leadOpen := false }) s)
      else s
    | none => s)

end Sys2Proof.Machine
end

