-- ==== Sys2Proof/Machine/Run.lean ====
section
/-! DEFINITION. What each command of Table: Opcodes does on the module that executes it, at its start (11_host_rings R340 and
the chapters it names): status, DETAIL and results. Gust inputs are scheduled in Machine/Command.lean. -/

namespace Sys2Proof.Machine

def withHif (f : Hif → Hif) (s : State) : State := { s with hif := f s.hif }

/-- OK or LATE with results. -/
def doneJob (j : Job) (a b : Nat) (s : State) : State := finishJob j j.done a b s

/-! MODE_REQ, STATUS_GET (R350, R479). -/

/-- The type 0x01 entry of a mode request that acts on this module (R479). -/
def modeInput (j : Job) (s : State) : GustInput :=
  { opcode := 0x02, targetDev := s.dom.dev, target := 0, locDev := 0xFF, locInput := 0xFF, tag := j.cmd.tag.toNat, arg := j.arg1 % 16,
    reqTick := j.start % 2 ^ 32 }

/-- A direct request waits for the Lull of its apply tick, recorded in that tick. -/
def runModeReq (j : Job) (s : State) : State :=
  { s with
    hif := { s.hif with jobs := s.hif.jobs ++ [j] }
    rec_ := { s.rec_ with block := s.rec_.block.map fun b => { b with ext := b.ext ++ [.input (modeInput j s)] } } }

/-- The status block as the last Lull left it (R350). -/
def State.statusNow (s : State) : List Byte := if s.dom.lastStatus = [] then statusBlock s else s.dom.lastStatus

/-- STATUS_GET (R338, R350): the module's own block, or the latest status frame of another. Log 76: DEDUCED. -/
def runStatusGet (j : Job) (s : State) : State :=
  let d := j.cmd.dev.toNat
  let give := fun (b : List Byte) => doneJob j 0 0 (fwDone 12 (2 ^ 60 + 0x3F900000) (bufAddr j.cmd.arg4) b.length (toHost j 0 b s))
  if d = s.dom.dev then give s.statusNow
  else if (s.isAdmitted d || s.refusedLately d) && (s.peer d).status ≠ [] then give (s.peer d).status
  else refuseJob j 3 s

/-! Configuration (R383 to R392). -/

/-- This module has a switch announced or, serving, a commit pending (R385). -/
def State.commitPending (s : State) : Bool := s.dom.pend.isSome || s.cfg.switch.isSome

/-- The image of a CFG_STAGE or IMG_STAGE: what the host's buffer holds, or what the manager's channel 13 has brought (R365,
R383). -/
def Job.image (j : Job) (s : State) : List Byte := match j.origin with
  | .frame _ => s.mem.load
  | _ => j.cmd.buf

/-- Channel 13 has taken the image from the host's buffer. -/
def takeImage (j : Job) (s : State) : State := match j.origin with
  | .frame _ => s
  | _ => fwDone 13 (bufAddr j.cmd.arg4) (loadAddr j.cmd) j.cmd.buf.length s

/-- CFG_STAGE (R383 to R386): LEVEL is reported INCOMPATIBLE. A worker sends its status frame before the completion. -/
def runCfgStage (j : Job) (s : State) : State :=
  if !(s.sys.mode ∈ [7, 8, 9, 10, 12] || s.refusedIsland) || s.sys.mode = 11 then refuseJob j 6 s
  else if s.commitPending then refuseJob j 4 s
  else match imageFault s.stageCtx (j.image s) j.arg1 with
    | some (ty, code, idx) =>
      let s := takeImage j s
      let s := { s with cfg := { s.cfg with staged := none, slots := (s.cfg.slots.set 2 none).set 3 none } }
      if code = 0x47 then finish j.origin j.cmd 7 code ty idx j.start s else rejectJob j code ty idx s
    | none =>
      let e := parseImage (j.image s)
      let s := takeImage j s
      let s := { s with cfg := { s.cfg with staged := some e, slots := (s.cfg.slots.set 2 (some e)).set 3 (some e) } }
      let s := match j.origin with
        | .frame _ => sendStatus s
        | _ => s
      storeSlots [2, 3] (pagesOf (j.image s).length) (doneJob j e.seq (e.id / 2 ^ 32) s)

/-- The domain protocol level as R387 uses it: before a first SYNC, the one the module would take (R313). -/
def State.levelNow (s : State) : Nat :=
  if s.dom.level ≠ 0 then s.dom.level
  else
    let i := s.mem.image s.mem.running
    if s.dom.levelSet < i.plMin || i.plMax < s.dom.levelSet then i.plMax else s.dom.levelSet

/-- A commit now would push out of the history an epoch in force within the last 2²⁴ ticks (R347). -/
def histFull (s : State) : Bool :=
  64 ≤ s.dom.hist.length && (match s.dom.hist[1]? with
    | some h => decide (s.tick < h.2 + 2 ^ 24)
    | none => false)

/-- What R387 finds first: none, or status and DETAIL; a commit that has switched and not completed keeps it BUSY. Log 53:
DEDUCED. -/
def commitFault (id : Nat) (s : State) : Option (Nat × Nat) :=
  let others := s.admittedDevs.filter (· ≠ s.dom.dev)
  if s.dom.pend.isSome || s.dom.done.isSome || histFull s then some (4, 0)
  else match s.cfg.staged with
    | some e =>
      if e.id ≠ id || others.any fun d => (s.peer d).staged ≠ id then some (2, 0x4A)
      else if e.deviceMask ≠ devMask (s.dom.dev :: others) then some (2, 0x4B)
      else if e.level ≠ s.levelNow then some (7, 0x47)
      else if s.cfg.has && e.seq ≤ s.cfg.e.seq then some (2, 0x49)
      else none
    | none => some (2, 0x4A)

def commitMode (m : Nat) : Bool := 7 ≤ m && m ≤ 11

/-- CFG_COMMIT, decided at decoding (R387, R388). -/
def runCfgCommit (j : Job) (s : State) : State :=
  let id := j.arg1 + 2 ^ 32 * j.arg2
  if !commitMode s.sys.mode then refuseJob j 6 s
  else match commitFault id s with
    | some (st, det) => if st = 2 then rejectJob j det 0 0 s else finish j.origin j.cmd st det 0 0 j.start s
    | none =>
      let named := j.cmd.apply.toNat
      let a := max named (s.tick + 32)
      let o := match j.origin with
        | .ring r i => some (r, i)
        | _ => none
      withDom (fun d => { d with
        pend := some { id := id, apply := a, origin := o, tag := j.cmd.tag.toNat, late := named ≠ 0 && named ≠ a, start := j.start } }) s

/-- CFG_ABORT (R392): it completes when the first cancelling Gust is sent. -/
def runCfgAbort (j : Job) (s : State) : State :=
  let id := j.arg1 + 2 ^ 32 * j.arg2
  if !commitMode s.sys.mode then refuseJob j 6 s
  else match s.dom.pend with
  | some p =>
    if p.id ≠ id || p.cancel.isSome then rejectJob j 0x4C 0 0 s
    else if p.apply < s.tick + 20 then refuseJob j 6 s
    else
      let o := match j.origin with
        | .ring r i => some (r, i)
        | _ => none
      let c : Cancel := { origin := o, tag := j.cmd.tag.toNat, at_ := s.tick, from_ := if s.time.phase < 3 then s.tick else s.tick + 1, late := j.late }
      withDom (fun d => { d with pend := some { p with cancel := some c } }) s
  | none => rejectJob j 0x4C 0 0 s

/-! Panels and lamps (R408, R409, R430). -/

def Job.region (j : Job) : PanelOp :=
  { kind := 0, id := j.arg1 / 65536, x0 := j.arg2 % 65536, y0 := j.arg2 / 65536, w := j.arg3 % 65536, h := j.arg3 / 65536, job := some j }

def runPanelUpdate (j : Job) (s : State) : State :=
  let i := j.arg1 % 2
  let c := s.cfg.e.panelSet i
  let o := j.region
  if c.present && !regionOk c o then rejectJob j 0x05 0 0 s
  else if !c.present || c.builtin || !panelMode s.sys.mode i then refuseJob j 6 s
  else if (s.panel i).pendHost.isSome then refuseJob j 4 s
  else
    let s := modPanel i (fun p => { p with pendHost := some (o, j.cmd.buf.take (o.w * o.h / 2)) }) s
    useFw 14 (bufAddr j.cmd.arg4) (2 ^ 60 + 0x3D100000) (o.w * o.h / 2) s

def runPanelClear (j : Job) (s : State) : State :=
  let i := j.arg1 % 2
  let c := s.cfg.e.panelSet i
  if !c.present || !panelMode s.sys.mode i then refuseJob j 6 s
  else if ((s.panel i).pendClear.bind (·.job)).isSome then refuseJob j 4 s
  else modPanel i (fun p => { p with pendClear := some (wholeOp c 1 0 true (some j)) }) s

/-- A lamp test starts at an edge, that of its apply tick or the next (R17, R430). Log 80: DEDUCED. -/
def runLampTest (j : Job) (s : State) : State :=
  if !(7 ≤ s.sys.mode && s.sys.mode ≤ 11) then refuseJob j 6 s
  else withField (fun f => { f with lampNew := f.lampNew ++ [j] }) s

/-! DMA (R360, R362). -/

/-- A transfer descriptor's CRC, and its reserved fields. -/
def descCrcOk (b : List Byte) : Bool := u16 b 28 = (crc16 (slice b 0 28)).toNat
def descRsv (b : List Byte) : Bool := u32 b 20 ≠ 0 || u32 b 24 ≠ 0 || u16 b 30 ≠ 0 || !adrOk (u64 b 0) || !adrOk (u64 b 8)

/-- DMA_START (R360): the descriptor's CRC, its reserved fields, its windows, then mode, device and channel. Log 164: DESIGN CHOICE. -/
def runDmaStart (j : Job) (s : State) : State :=
  let c := j.arg1 % 16
  let b := j.cmd.buf
  let x := s.chan c
  let src := u64 b 0
  let dst := u64 b 8
  let len := u32 b 16
  if !descCrcOk b then rejectJob j 0x01 0 0 s
  else if descRsv b then rejectJob j 0x04 0 0 s
  else if len = 0 || !windowOk false src len s || !windowOk true dst len s then rejectJob j 0x05 0 0 s
  else if s.sys.mode = 11 then refuseJob j 6 s
  else if adrLost src s || adrLost dst s then refuseJob j 3 s
  else if x.busy then refuseJob j 4 s
  else startChan c (setChan c { x with src := x.src.put src, dst := x.dst.put dst, len := len, prio := j.arg1 / 16 % 4, byCmd := true, job := some j } s)

/-- DMA_PAUSE: `data` and `wr` as the channel has read and written since it last stood still (R359). Log 79: DEDUCED. -/
def runDmaPause (data : List Byte) (wr : Nat) (j : Job) (s : State) : State :=
  let c := j.arg1 % 16
  let x := s.chan c
  if x.state = 1 || x.state = 2 then pauseChan c data wr (setChan c { x with pauser := some j } s)
  else refuseJob j 6 s

def runDmaResume (j : Job) (s : State) : State :=
  let c := j.arg1 % 16
  if (s.chan c).state = 4 then doneJob j 0 0 (resumeChan c s) else refuseJob j 6 s

/-! REC_PULL (R351, R352). -/

/-- The checkpoint copy that stands after a block's extension (R60, R61). -/
def copyBytes (fw : Nat) (domainPart : Bool) (t : Nat) : List Byte :=
  let l := 4 * (1 + Config.ckptLen t % (if domainPart then 24576 else 8192))
  [0x0C#8, 0, 0, 0] ++ leBytes 4 l ++ leBytes 4 fw ++ tab (l - 4) (Config.ckptByte t)

/-- A block as it lies in the record (R59, R60). -/
def blockBytes (s : State) (b : Block) : List Byte :=
  encBlock b ++ if b.ckptCopy then copyBytes (fwVersion s) (s.sys.role < 3) b.tick else []

/-- A Hokulu chunk: header fields and the blocks' bytes. -/
structure Chunk where
  first : Nat
  blocks : Nat
  flags : Nat
  epochId : Nat
  body : List Byte
deriving DecidableEq, Repr

/-- A block lost under RECORD_LOST lies between the first and the last block of a chunk. -/
def mkChunk (s : State) (bs : List Block) : Chunk :=
  let lo := (bs.head?.map (·.tick)).getD 0
  let hi := (bs.getLast?.map (·.tick)).getD 0
  { first := lo, blocks := bs.length, epochId := (bs.head?.map (·.epochId)).getD 0,
    flags := b2n (s.rec_.lost.any fun t => lo ≤ t && t ≤ hi) + 2 * b2n (bs.any (·.test)),
    body := (bs.map (blockBytes s)).flatten }

def Chunk.len (c : Chunk) : Nat := 32 + c.body.length

/-- Table: Hokulu chunk header, and the blocks. -/
def Chunk.bytes (dev : Nat) (c : Chunk) : List Byte :=
  leBytes 4 0x554C4B48 ++ leBytes 2 1 ++ leBytes 1 dev ++ leBytes 1 c.flags ++ leBytes 6 c.first ++ leBytes 2 c.blocks
    ++ leBytes 4 c.body.length ++ leBytes 4 (crc32 c.body) ++ leBytes 8 c.epochId ++ c.body

/-- Blocks in chunks of up to 1 024; fuel is the number of blocks. -/
def chunksOf : Nat → List Block → List (List Block)
  | 0, _ => []
  | k + 1, bs => if bs = [] then [] else bs.take 1024 :: chunksOf k (bs.drop 1024)

/-- Chunks placed at 64-byte boundaries while they fit, with their offsets. -/
def placeChunks (size : Nat) : Nat → List Chunk → List (Nat × Chunk)
  | _, [] => []
  | ofs, c :: t => if ofs + c.len ≤ size then (ofs, c) :: placeChunks size (ceilDiv (ofs + c.len) 64 * 64) t else []

/-- First tick of a pull. -/
def Job.first (j : Job) : Nat := j.arg1 + 2 ^ 32 * (j.arg2 % 65536)

/-- REC_PULL (R349 to R352). Bytes delivered are the chunks' own, without the padding to the next multiple of 64. Log 163: DESIGN CHOICE. -/
def runRecPull (j : Job) (s : State) : State :=
  let bs := s.rec_.blocks.reverse
  let first := j.first
  match bs with
  | [] => refuseJob j 6 s
  | b0 :: _ =>
    if first < b0.tick then rejectJob j 0x05 0 0 s
    else if s.sys.mode = 11 then refuseJob j 6 s
    else
      let want := bs.filter fun b => first ≤ b.tick && b.tick < first + j.arg3 && b.tick ∉ s.rec_.lost
      let all := (chunksOf want.length want).map (mkChunk s)
      let got := placeChunks (65536 * j.cmd.arg0.toNat) 0 all
      let s := match j.origin with
        | .frame _ => toHost j 0 (got.flatMap fun x => x.2.bytes s.dom.dev) s
        | _ => got.foldl (fun s x => toHost j x.1 (x.2.bytes s.dom.dev) s) s
      let s := match j.origin with
        | .frame _ => s
        | _ => got.zipIdx.foldl (fun s x => postRec (j.arg2 / 65536 % 64)
            (recWords s.dom.dev j.cmd.tag.toNat x.1.2.first x.1.2.blocks x.1.1 x.1.2.len (crc32 x.1.2.body) x.1.2.flags
              (x.2 + 1 = got.length && got.length = all.length)) s) s
      let ticks := (got.map fun x => x.2.blocks).foldl (· + ·) 0
      let bytes := (got.map fun x => x.2.len).foldl (· + ·) 0
      let s := fwDone 12 (2 ^ 60) (bufAddr j.cmd.arg4) bytes s
      finishJob j (if got.length = all.length then j.done else 5) ticks bytes s

/-! EVT_REREAD (R348). -/

/-- First number from `k` on that an ascending list lacks. -/
def firstGap : Nat → List Nat → Nat
  | k, [] => k
  | k, o :: t => if o = k then firstGap (k + 1) t else k

/-- EVT_REREAD (R348). An entry that cannot be read ends it with STORE_ERROR, is reported, and is lost (R378, Table: Store codes).
Log 147: DESIGN CHOICE. -/
def runEvtReread (j : Job) (s : State) : State :=
  let n := j.arg3 % 64
  let all := (s.mem.store ++ s.mem.page).filter fun v => sub32 v.seq j.arg1 < j.arg2
  let es := all.takeWhile fun v => !(v ∈ s.mem.store && Config.entryBad s.free v.seq)
  let bad := all[es.length]?
  let s := { s with free := s.free + 1 }
  let gap := firstGap 0 (es.map fun v => sub32 v.seq j.arg1)
  let lost := if gap < j.arg2 then (j.arg1 + gap) % 2 ^ 32 else 0
  let s := fwDone 12 (2 * 2 ^ 60 + 0x07000000) ((s.ring n).base.applied) (32 * es.length) s
  let status := if bad.isSome then 8 else j.done
  let s := match bad with
    | some v => withMem (fun m => { m with store := m.store.filter (· ≠ v) }) (storeError .eventStore (Config.eventAddr v.seq) s)
    | none => s
  match j.origin with
  | .frame _ =>
    finishJob j status es.length lost (toHost j 0 (es.flatMap fun v => descBytes (eventWords s.dom.dev false false false v) 0) s)
  | _ =>
    let s := es.foldl (fun s v => postReplay n (eventWords s.dom.dev false true false v) s) s
    if es ≠ [] && (s.ring n).waitE ≠ [] then
      withHif (fun h => { h with rereads := h.rereads ++ [{ ring := n, left := (s.ring n).waitE.length, own := es.length, job := j, status := status, count := es.length, lost := lost }] }) s
    else finishJob j status es.length lost s

/-! Images (R472 to R475). -/

/-- Table: Buryar header, with what verification of the bytes finds (R472). -/
def parseBuryar (b : List Byte) : BImage :=
  { empty := false, part := u8 b 6, version := u32 b 8, peerMin := u32 b 12, peerMax := u32 b 16, stepMin := u16 b 20, stepMax := u16 b 22,
    plMin := u16 b 24, plMax := u16 b 26, sig := Config.imageSigOk (u8 b 7) (b.take 64 ++ slice b 64 64),
    hash := slice b 32 32 = sha256 (b.drop 256) }

/-- The header is one Table: Buryar header gives, for an image of `len` bytes of part `part`. -/
def buryarOk (b : List Byte) (part len : Nat) : Bool :=
  u32 b 0 = 0x52595542 && u16 b 4 = 1 && u8 b 6 = part && u8 b 7 ≤ 3 && b.length = len && len = 256 + u32 b 28
    && u32 b 28 ≤ (if part = 0 then 33554176 else 4194048) && (part = 0 || (u16 b 24 = 0 && u16 b 26 = 0)) && allZero (slice b 128 128)

/-- The slot a new control firmware image goes to: the one not running; in RECOVERY the one not preferred. -/
def freeSlot (s : State) : Nat := if s.sys.mode = 5 then 1 - b2n s.mem.optUse.prefB else 1 - s.mem.running

/-- An image slot or microcode copy is written (R368, R473); one that fails with the reserve empty does not verify. -/
def storeImage (k : Nat) (i : BImage) (len : Nat) (s : State) : State :=
  let r := program ([0x00400000, 0x02400000, 0x04400000, 0x04800000].getD k 0) (pagesOf len) s
  withMem (fun m => { m with images := s.mem.images.set k (if r.1 then i else { i with hash := false }) }) r.2

/-- Log 82: DEDUCED. -/
def runImgStage (j : Job) (s : State) : State :=
  let part := j.arg1 % 2
  let b := j.image s
  let i := parseBuryar b
  let s := takeImage j s
  if !buryarOk b part j.arg2 || !i.sig || !i.hash then rejectJob j 0x05 0 0 s
  else if !i.accepted then refuseJob j 7 s
  else
    (if part = 0 then [freeSlot s] else [3, 2]).foldl (fun s k => storeImage k i b.length s)
      (doneJob j i.version (65536 * (i.peerMin / 65536) + i.peerMax / 65536) s)

/-- The place of the option copy to be written first (R468, R470): the older, or one that is not valid. -/
def Mem.olderOpt (m : Mem) : Nat := match m.opt 0, m.opt 1 with
  | some a, some b => if newerOpt a b = a then 1 else 0
  | some _, none => 1
  | none, _ => 0

/-- One copy of the option block programmed and verified in detect-only mode (R376, R470); a copy lost is not readable. -/
def writeOpt (k : Nat) (b : List Byte) (s : State) : Bool × State :=
  let r := program (0x00040000 * k) 1 s
  (r.1, withMem (fun m => { m with opts := m.opts.set k (if r.1 then b else []) }) r.2)

/-- A write of the option block with SEQ + 1 (R470): the older copy, and once it is verified the other. Log 93: DEDUCED. -/
def writeOpts (o : OptBlock) (s : State) : State :=
  let b := encOpt optMagic { o with seq := (s.mem.newestOpt.map (·.seq)).getD 0 + 1 }
  let k := s.mem.olderOpt
  let r := writeOpt k b s
  if r.1 then (writeOpt (1 - k) b r.2).2 else r.2

/-- The option block as flash holds it, without the override (R468, R469). -/
def Mem.stored (m : Mem) : OptBlock := m.newestOpt.getD m.optUse

def runImgActivate (j : Job) (s : State) : State :=
  let k := j.arg1 % 2
  if !(s.sys.mode = 5 || s.sys.mode = 7 || s.sys.mode = 12) then refuseJob j 6 s
  else
    let good := (s.mem.image k).accepted && (match s.mem.ucCopy with
      | some u => listed (s.mem.image k) (s.mem.image (2 + u))
      | none => false)
    if !good then refuseJob j 7 s
    else
      let s := writeOpts { s.mem.stored with prefB := k = 1 } s
      doneJob j 0 0 (withSys (fun y => { y with resetDue := some 4, recoveryOnce := false }) s)

/-! Engines and blocks (R274, R464 to R466). -/

/-- Log 81: DEDUCED. -/
def runAuditNow (j : Job) (s : State) : State :=
  if !(8 ≤ s.sys.mode && s.sys.mode ≤ 11) then refuseJob j 6 s
  else if s.eng.audit.isSome then refuseJob j 4 s
  else if s.eng.other ≠ 0 then refuseJob j 6 s
  else startAudit (some j) s

/-- Codes of Table: Block reset codes, and the modes each is permitted in; the engines' own condition is R274's. -/
def blockCodes : List Nat := [0x01, 0x02, 0x10, 0x11, 0x12, 0x13, 0x14]
def blockPermitted (code : Nat) (s : State) : Bool :=
  if code ≤ 2 then
    let st := s.eng.of (code = 2)
    6 ≤ s.sys.mode && s.sys.mode ≤ 12 && ((st ≠ 1 && st ≠ 2) || eligible s.eng.other)
  else if code = 0x11 || code = 0x14 then s.sys.mode = 7 || s.sys.mode = 12
  else 7 ≤ s.sys.mode && s.sys.mode ≤ 12

def State.blockRunning (s : State) : Bool := 1 ≤ s.sys.blkState && s.sys.blkState ≤ 3

/-- Step 1 of R465; an engine is taken off duty, or halted, at once (R274). -/
def beginBlock (code : Nat) (j : Option Job) (s : State) : State :=
  let s := withSys (fun y => { y with blkCode := code, blkState := 1, blkForced := false, blkJob := j }) s
  if code ≤ 2 then
    let b := decide (code = 2)
    let st := s.eng.of b
    let s := if st = 1 || st = 2 then takeover s else resetEngine b s
    withEng (fun g => { g with named := (List.range 2).map fun i => i = b2n b || g.named.getD i false }) s
  else s

def runBlockReset (j : Job) (s : State) : State :=
  let code := j.arg1 % 256
  if !blockPermitted code s then refuseJob j 6 s
  else if s.blockRunning then refuseJob j 4 s
  else beginBlock code (some j) s

/-- What the reset of a block other than an engine does to it (Table: Block reset codes); register pairs return to their reset
values with it (R396, R499). -/
def blockEffect (code : Nat) (forced : Bool) (s : State) : State :=
  match code with
  | 0x10 =>
    let s := (List.range 12).foldl (fun s c =>
      let s := if (s.chan c).busy then
          (if !forced then abortChan c 0 s else if (s.chan c).toRemote then loseChan c 2 s
           else endChan c 6 2 (errStatus 2) (progress c [] (s.chan c).buf.length s))
        else s
      setChan c { s.chan c with src := {}, dst := {} } s) s
    arbitrate (nextLoad s)
  | 0x11 => (List.range 2).foldl (fun s p =>
      ringPath p (setPort p { ct := (s.port p).ct, busy := true, downAt := some s.tick, testAt := some s.tick } s)) s
  | 0x12 => stopOp 1 (stopOp 0 s)
  | 0x13 => withField (fun f => { f with applied := { f.applied with lamps := tab 16 fun _ => .dark } }) s
  | 0x14 => if s.field.powered then fieldAfresh s else s
  | _ => s

/-- BLOCK_RESET_DONE (R465, R466): idle or forced, held in reset, released; a power-fail warning leaves the block in reset. -/
def execBlockResetDone (idle : Bool) (s : State) : Out :=
  ok (when_ s.blockRunning (fun s =>
    let s := blockEffect s.sys.blkCode (!idle) s
    if s.sys.powerFail.isSome then withSys (fun y => { y with blkState := 3, blkForced := !idle }) s
    else
      let j := s.sys.blkJob
      let s := withSys (fun y => { y with blkState := 4, blkForced := !idle, blkJob := none }) s
      match j with
      | some j => doneJob j s.eng.word 0 s
      | none => s) s)

/-! One command at its start. -/

/-- Only these run in RECOVERY (R340). -/
def recoveryOp (op : Nat) : Bool := op ∈ [0x01, 0x02, 0x03, 0x70, 0x71]

/-- The block of Table: Block reset codes that an operation is a request to. -/
def opBlock (op : Nat) : Option Nat :=
  if op = 0x40 || op = 0x41 then some 0x12 else if op = 0x42 then some 0x13 else if op = 0x30 || op = 0x31 then some 0x14 else none

/-- A command that this module executes starts (R337, R340); one whose block is in reset has an error response and ends ABORTED (R465).
Log 134: DEDUCED. -/
def runJob (j : Job) (s : State) : State :=
  let op := j.cmd.op.toNat
  if s.sys.mode = 5 && !recoveryOp op then refuseJob j 6 s
  else if (opBlock op).any s.inReset then refuseJob j 5 s
  else match op with
    | 0x01 => doneJob j 0 0 s
    | 0x02 => runModeReq j s
    | 0x03 => runStatusGet j s
    | 0x10 => runCfgStage j s
    | 0x11 => runCfgCommit j s
    | 0x12 => runCfgAbort j s
    | 0x30 => runSurvey j s
    | 0x31 => runLeadMeasure j s
    | 0x40 => runPanelUpdate j s
    | 0x41 => runPanelClear j s
    | 0x42 => runLampTest j s
    | 0x50 => runDmaStart j s
    | 0x51 => runDmaPause [] 0 j s
    | 0x52 => runDmaResume j s
    | 0x60 => runRecPull j s
    | 0x61 => runEvtReread j s
    | 0x70 => runImgStage j s
    | 0x71 => runImgActivate j s
    | 0x80 => runAuditNow j s
    | 0x81 => runBlockReset j s
    | _ => refuseJob j 6 s

/-- A command starts, and so leaves the queue of R307. -/
def startJob (j : Job) (s : State) : State := runJob j (leaveFrame j s)

end Sys2Proof.Machine
end

