-- ==== Sys2Proof/Machine/Command.lean ====
section
/-! DEFINITION. Ring commands from the host (11_host_rings R328, R336 to R343), their routes (R338; 02_the_tick R51 to R54),
resubmission after a takeover (R282), and command and completion frames (10_domain_network R306 to R309, R317). -/

namespace Sys2Proof.Machine

/-! Table: Opcodes. -/

/-- CLASS of an opcode and the bits its ARG0 to ARG4 may have set. -/
structure OpRow where
  cls : Nat
  args : List Nat
deriving DecidableEq, Repr

def full : Nat := 0xFFFFFFFF

def opRow (op : Nat) : Option OpRow :=
  match op with
  | 0x01 => some { cls := 1, args := [0, 0, 0, 0, 0] }
  | 0x02 => some { cls := 1, args := [0, 0xF, 0, 0, 0] }
  | 0x03 => some { cls := 2, args := [0, 0, 0, 0, full] }
  | 0x10 => some { cls := 2, args := [0, full, 0, 0, full] }
  | 0x11 | 0x12 => some { cls := 1, args := [0, full, full, 0, 0] }
  | 0x20 => some { cls := 1, args := [0, 0x800003FF, full, 0, 0] }
  | 0x21 | 0x26 => some { cls := 1, args := [0, 0x3F, full, 0, 0] }
  | 0x22 | 0x23 | 0x24 | 0x25 => some { cls := 1, args := [0, 0x3FF, full, 0, 0] }
  | 0x30 => some { cls := 2, args := [0xFFFF, full, full, 0x1FFFF, full] }
  | 0x31 => some { cls := 1, args := [0, 0x3F, 0, 0, 0] }
  | 0x40 => some { cls := 2, args := [0, 0xFFFF0001, full, full, full] }
  | 0x41 => some { cls := 1, args := [0, 1, 0, 0, 0] }
  | 0x42 => some { cls := 1, args := [0, 0xFFFF, full, 0, 0] }
  | 0x50 => some { cls := 2, args := [0, 0x3F, full, full, 0] }
  | 0x51 | 0x52 => some { cls := 1, args := [0, 0xF, 0, 0, 0] }
  | 0x60 => some { cls := 2, args := [0xFFFF, full, 0x3FFFFF, full, full] }
  | 0x61 => some { cls := 2, args := [0, full, full, 0x3F, 0] }
  | 0x70 => some { cls := 2, args := [0, 1, full, 0, full] }
  | 0x71 => some { cls := 1, args := [0, 1, 0, 0, 0] }
  | 0x80 => some { cls := 1, args := [0, 0, 0, 0, 0] }
  | 0x81 => some { cls := 1, args := [0, 0xFF, 0, 0, 0] }
  | _ => none

def Cmd.args (c : Cmd) : List Nat := [c.arg0.toNat, c.arg1.toNat, c.arg2.toNat, c.arg3.toNat, c.arg4.toNat]

/-- A bit is set that the table gives no field. -/
def rsvSet (mask v : Nat) : Bool := (BitVec.ofNat 32 v &&& ~~~ BitVec.ofNat 32 mask) ≠ 0

/-- Order 4 of Table: Descriptor checks beyond reserved bits: reserved encodings of the arguments (R206, R242).
Log 75: DEDUCED. -/
def rsvArg (c : Cmd) (s : State) : Bool :=
  let a1 := c.arg1.toNat
  let a2 := c.arg2.toNat
  match c.op.toNat with
  | 0x20 => a2 % 4 = 3 || 4 ≤ a2 || (bit a1 31 && a2 % 4 ≠ 2) || (a2 % 4 = 1 && 64 ≤ a1 % 1024)
  | 0x21 => 2 ^ 25 ≤ a2 || bits a2 24 23 = 0
  | 0x23 | 0x24 | 0x25 => a2 ≠ 0
  | 0x26 => 16 ≤ a2 || (s.cfg.e.sess (a1 % 64)).follow
  | _ => false

/-- Ring `n` is enabled with TYPE `ty`. -/
def ringIs (n ty : Nat) (s : State) : Bool := (s.ring n).enable && (s.ring n).type = ty

/-- Order 5: an argument outside its range; rings are those of the module that `here` says decodes the descriptor. What only the module
it is for can tell (its panels, cells and record) that module checks. -/
def badArg (here : Bool) (c : Cmd) (s : State) : Bool :=
  let a1 := c.arg1.toNat
  let a2 := c.arg2.toNat
  let a3 := c.arg3.toNat
  let own := !here || c.dev.toNat = s.dom.dev
  match c.op.toNat with
  | 0x02 => a1 % 16 ∉ [5, 7, 9, 11, 12]
  | 0x11 | 0x12 | 0x26 => c.dev ≠ 0
  | 0x22 => a2 = 0
  | 0x31 => own && (let r := s.field.route.cellR (a1 % 64); r.pPin = 0xFF || r.excSrc = 0xFF)
  | 0x40 =>
    let p := s.cfg.e.panelSet (a1 % 2)
    own && p.present && !regionOk p { x0 := a2 % 65536, y0 := a2 / 65536, w := a3 % 65536, h := a3 / 65536 }
  | 0x30 => let pf := a3 % 65536
    (pf ≠ 0 && (pf < 10 || 1000 < pf)) || (bit a3 16 && 16 < (maskPins (a1 + 2 ^ 32 * a2)).length)
  | 0x42 => a2 = 0 || 60000 < a2
  | 0x50 => 12 ≤ a1 % 16 || a2 % 32 ≠ 0
  | 0x51 | 0x52 => 12 ≤ a1 % 16
  | 0x60 => a3 = 0 || 2700000 < a3 || (own && (s.rec_.blocks.getLast?.any fun b => a1 + 2 ^ 32 * (a2 % 65536) < b.tick)) || (here && !ringIs (a2 / 65536 % 64) 3 s)
  | 0x61 => a2 = 0 || 65536 < a2 || (here && !ringIs (a3 % 64) 2 s)
  | 0x81 => a1 % 256 ∉ blockCodes
  | _ => false

/-- Commands that only a module with a host, or the serving module, executes: none comes in a command frame. -/
def hostOnly (op : Nat) : Bool := op ∈ [0x11, 0x12, 0x20, 0x21, 0x22, 0x23, 0x24, 0x25, 0x26, 0x50, 0x51, 0x52]

/-- Order 6: DMA channels serve a host, so not on a worker or a module that does not attach one; and what comes in a command
frame serves no host. -/
def wrongRole (here : Bool) (c : Cmd) (s : State) : Bool :=
  if here then (c.op = 0x50 || c.op = 0x51 || c.op = 0x52) && c.dev.toNat ≠ s.dom.dev else hostOnly c.op.toNat

/-- Order 7: a buffer word of zero, or a buffer shorter than the result needs. -/
def badBuf (c : Cmd) : Bool :=
  let op := c.op.toNat
  (op ∈ [0x03, 0x10, 0x30, 0x40, 0x60, 0x70] && c.arg4 = 0) || (op = 0x60 && c.arg0 = 0)
    || (op = 0x30 && (let ps := maskPins (c.arg1.toNat + 2 ^ 32 * c.arg2.toNat)
        c.arg0.toNat < surveyLen ps.length (surveyPairs ps (c.arg3.getLsbD 16)).length))

/-- Table: Descriptor checks: DETAIL of the first that fails, 0 for none (R7, R339), of a ring descriptor or, with `here`
false, of the one in a command frame. -/
def descFault (here : Bool) (c : Cmd) (s : State) : Nat :=
  if !c.crcOk then 0x01
  else match opRow c.op.toNat with
    | none => 0x02
    | some r =>
      if c.cls.toNat ≠ r.cls then 0x03
      else if c.rsv ≠ 0 || ((r.args.zip c.args).any fun x => rsvSet x.1 x.2) || rsvArg c s then 0x04
      else if badArg here c s then 0x05
      else if wrongRole here c s then 0x06
      else if badBuf c then 0x07
      else if s.tick + 86400000 < c.apply.toNat then 0x08
      else 0

/-- The checks of a ring descriptor. -/
def cmdFault (c : Cmd) (s : State) : Nat := descFault true c s

/-! Gust inputs (R51 to R54, R243, R338, R479). -/

/-- A mode request that every module takes: 11, and 9 from BLACKOUT. -/
def modeForAll (c : Cmd) (s : State) : Bool :=
  let t := c.arg1.toNat % 16
  t = 11 || (t = 9 && s.sys.mode = 11)

/-- The command travels in the Gust: a mode request when it is for every module, or for a worker (R24, R338, R479). -/
def inGust (c : Cmd) (s : State) : Bool :=
  let op := c.op.toNat
  (0x20 ≤ op && op ≤ 0x26) || (op = 0x02 && ((c.dev.toNat ≠ s.dom.dev && 2 ≤ c.dev.toNat) || modeForAll c s))

/-- The Gust input entry of a ring command (R43); REQ_TICK is the tick named, or the tick planned. -/
def gustInput (c : Cmd) (s : State) : GustInput :=
  let op := c.op.toNat
  let a1 := c.arg1.toNat
  let named := c.apply.toNat
  { opcode := op, locDev := 0xFF, locInput := 0xFF, tag := c.tag.toNat, reqTick := (if named = 0 then s.earliest else named) % 2 ^ 32
    targetDev := (match op with
      | 0x02 => if modeForAll c s then 0xFF else c.dev.toNat
      | 0x20 => if bit a1 31 then 0xFF else c.dev.toNat
      | 0x21 => 0xFF
      | 0x26 => 0
      | _ => c.dev.toNat)
    target := (match op with
      | 0x02 => 0
      | 0x21 => a1 % 64
      | 0x26 => a1 % 64
      | _ => a1 % 1024)
    arg := if op = 0x02 then a1 % 16 else c.arg2.toNat }

/-- A ring command scheduled for the Gust, or completed at once: NO_DEVICE, BUSY (R54). -/
def scheduleCmd (c : Cmd) (r i : Nat) (s : State) : State :=
  let g := gustInput c s
  let o := Origin.ring r i
  let all := g.targetDev = 0xFF || g.opcode = 0x26
  if !all && g.targetDev ≠ s.dom.dev && !s.isAdmitted g.targetDev then finish o c 3 0 0 0 s.tick s
  else if s.schedsFull then finish o c 4 0 0 0 s.tick s
  else
    let named := c.apply.toNat
    addSched { apply := max named s.earliest, ring := some (r, i), late := named ≠ 0 && named < s.earliest, dev := c.dev.toNat, ta := s.tick, input := g } s

/-! Starting here (R337). -/

/-- The tick a command starts in: a direct mode request decoded after the Lull has begun starts in the next tick. -/
def startTick (c : Cmd) (s : State) : Nat :=
  let now := if c.op = 0x02 && 3 ≤ s.time.phase then s.tick + 1 else s.tick
  if c.op = 0x01 || c.op = 0x11 || c.op = 0x12 then s.tick else max now c.apply.toNat

/-- Execute here: at once, by `run`, or in the apply tick. -/
def startHere (run : Job → State → State) (c : Cmd) (o : Origin) (s : State) : State :=
  let t := startTick c s
  let named := c.apply.toNat
  let j : Job := { cmd := c, origin := o, start := t, late := c.op ≠ 0x11 && named ≠ 0 && named < t, decoded := s.tick }
  if s.tick < t then withHif (fun h => { h with jobs := h.jobs ++ [j] }) s else run j s

/-! Forwarding (R306, R317, R338). -/

/-- A command for another device: an image goes before it, by channel 13 (R365). In BLACKOUT, where class 2 is shed, a CFG_STAGE is not
permitted (R383). -/
def forward (c : Cmd) (o : Origin) (s : State) : State :=
  let d := c.dev.toNat
  if c.op = 0x10 && s.sys.mode = 11 then finish o c 6 0 0 0 s.tick s
  else if (c.op = 0x10 || c.op = 0x70) && c.buf ≠ [] && ((s.isAdmitted d && (s.peer d).inFlight < 16) || s.takesRefused d c.op.toNat) then loadFor c o s
  else sendCommand c o s

/-- The route of a command that has passed its checks (R338, R340). -/
def route (run : Job → State → State) (c : Cmd) (r i : Nat) (s : State) : State :=
  let op := c.op.toNat
  let d := c.dev.toNat
  let o := Origin.ring r i
  if s.sys.mode = 5 && !recoveryOp op then finish o c 6 0 0 0 s.tick s
  else if op = 0x02 && d ≠ s.dom.dev && !modeForAll c s && !s.isAdmitted d && s.refusedLately d then forward c o s
  else if inGust c s then scheduleCmd c r i s
  else if d = s.dom.dev || op = 0x11 || op = 0x12 || op = 0x03 then startHere run c o s
  else forward c o s

/-! Resubmission (R282). -/

def sameCmd (c : Cmd) (x : JournalCmd) : Bool := x.tag = c.tag.toNat && x.op = c.op.toNat && x.dev = c.dev.toNat

/-- The serving standby knows the command: it stands scheduled, its commit stands announced, or its outcome is in the journal;
that of a Gust input only if the manager sent its Gust. -/
def recognise (c : Cmd) (r i : Nat) (s : State) : Option State :=
  if s.dom.tookOver.isNone then none
  else
    let mine := fun (x : Sched) => x.orphan && x.input.tag = c.tag.toNat && x.input.opcode = c.op.toNat && x.dev = c.dev.toNat
    let take := fun (x : Sched) => if mine x then { x with orphan := false, ring := some (r, i) } else x
    if (s.view.scheds ++ s.dom.placed).any mine then
      some (withDom (fun d => { d with placed := d.placed.map take }) (modDec (fun d => { d with scheds := d.scheds.map take }) s))
    else
      match s.dom.pend with
      | some p =>
        if c.op = 0x11 && p.origin.isNone && p.tag = c.tag.toNat then
          some (withDom (fun d => { d with pend := some { p with origin := some (r, i) } }) s)
        else known s
      | none => known s
where
  known (s : State) : Option State :=
    (s.dom.known.find? fun x => sameCmd c x.2 && s.tick ≤ x.1 + 65536 && (!x.2.gust || s.dom.tookOver.all fun t => x.2.used + 2 ≤ t)).map fun x =>
      finish (.ring r i) c x.2.status x.2.detail x.2.a x.2.b x.2.used s

/-! Decoding a descriptor (R328, R331, R341). -/

/-- The next descriptor of its CMD ring is `c`, decoded under the row of opcode `op`; one with a wrong CRC or a reserved
opcode is decoded under whichever row brings it. Nothing is decoded while completions wait (R343) or after a power-fail
warning (R457). Log 71: DEDUCED. -/
def decodable (op : Nat) (c : Cmd) (s : State) : Bool :=
  let r := s.ring c.ring
  (c.op.toNat = op || !c.crcOk || (opRow c.op.toNat).isNone) && s.path && s.sys.powerFail.isNone && r.type = 0 && r.live
    && r.pidx ≠ r.cidx && (s.ring r.link).waitC = []

/-- The journal names each command decoded (R275): one that has no outcome yet by the tick planned, when it waits for a Gust,
and otherwise ABORTED. Log 124: DEDUCED. -/
def noteCmd (c : Cmd) (r i : Nat) (s : State) : State :=
  if !s.domain || s.dom.cmds.any fun x => x.ring = r && x.index = i then s
  else
    let x : JournalCmd := { ring := r, index := i, tag := c.tag.toNat, op := c.op.toNat, dev := c.dev.toNat, apply := c.apply.toNat, status := 5,
                            used := s.tick }
    let x := match s.view.scheds.find? fun y => y.ring = some (r, i) with
      | some y => { x with status := okLate y.late, used := y.apply, gust := true }
      | none => x
    withDom (fun d => { d with cmds := d.cmds ++ [x] }) s

def takeCmd (op : Nat) (run : Job → State → State) (c : Cmd) (s : State) : State :=
  if decodable op c s then
    let r := s.ring c.ring
    let i := r.cidx
    let s := setRing c.ring { r with cidx := (i + 1) % 2 ^ 32, wbDue := true } s
    match (if c.crcOk then recognise c c.ring i s else none) with
    | some s => s
    | none =>
      match cmdFault c s with
      | 0 => noteCmd c c.ring i (route run c c.ring i s)
      | d => finish (.ring c.ring i) c 2 d 0 0 s.tick s
  else s

/-- Log 74: DEDUCED. -/
def execNop (c : Cmd) (s : State) : Out := ok (takeCmd 0x01 runJob c s)
def execModeReq (c : Cmd) (s : State) : Out := ok (takeCmd 0x02 runJob c s)
def execStatusGet (c : Cmd) (s : State) : Out := ok (takeCmd 0x03 runJob c s)
def execCfgStage (c : Cmd) (s : State) : Out := ok (takeCmd 0x10 runJob c s)
def execCfgCommit (c : Cmd) (s : State) : Out := ok (takeCmd 0x11 runJob c s)
def execCfgAbort (c : Cmd) (s : State) : Out := ok (takeCmd 0x12 runJob c s)
def execAck (c : Cmd) (s : State) : Out := ok (takeCmd 0x20 runJob c s)
def execSilence (c : Cmd) (s : State) : Out := ok (takeCmd 0x21 runJob c s)
def execShelve (c : Cmd) (s : State) : Out := ok (takeCmd 0x22 runJob c s)
def execUnshelve (c : Cmd) (s : State) : Out := ok (takeCmd 0x23 runJob c s)
def execOosSet (c : Cmd) (s : State) : Out := ok (takeCmd 0x24 runJob c s)
def execOosClear (c : Cmd) (s : State) : Out := ok (takeCmd 0x25 runJob c s)
def execDutySelect (c : Cmd) (s : State) : Out := ok (takeCmd 0x26 runJob c s)
def execSurvey (c : Cmd) (s : State) : Out := ok (takeCmd 0x30 runJob c s)
def execLeadMeasure (c : Cmd) (s : State) : Out := ok (takeCmd 0x31 runJob c s)
def execPanelUpdate (c : Cmd) (s : State) : Out := ok (takeCmd 0x40 runJob c s)
def execPanelClear (c : Cmd) (s : State) : Out := ok (takeCmd 0x41 runJob c s)
def execLampTest (c : Cmd) (s : State) : Out := ok (takeCmd 0x42 runJob c s)
def execDmaStart (c : Cmd) (s : State) : Out := ok (takeCmd 0x50 runJob c s)
/-- DMA_PAUSE with what the channel has read and written since it last stood still. -/
def execDmaPause (c : Cmd) (data : List Byte) (wr : Nat) (s : State) : Out := ok (takeCmd 0x51 (runDmaPause data wr) c s)
def execDmaResume (c : Cmd) (s : State) : Out := ok (takeCmd 0x52 runJob c s)
def execRecPull (c : Cmd) (s : State) : Out := ok (takeCmd 0x60 runJob c s)
def execEvtReread (c : Cmd) (s : State) : Out := ok (takeCmd 0x61 runJob c s)
def execImgStage (c : Cmd) (s : State) : Out := ok (takeCmd 0x70 runJob c s)
def execImgActivate (c : Cmd) (s : State) : Out := ok (takeCmd 0x71 runJob c s)
def execAuditNow (c : Cmd) (s : State) : Out := ok (takeCmd 0x80 runJob c s)
def execBlockReset (c : Cmd) (s : State) : Out := ok (takeCmd 0x81 runJob c s)

/-! Frames (R306 to R309). -/

/-- DETAIL of a command frame's command, zero when it passes: as for a descriptor, with the reserved bits of the frame's header and
payload among those of check 0x04 (R7). -/
def frameFault (rsv : Nat) (c : Cmd) (s : State) : Nat :=
  let d := descFault false c s
  if rsv ≠ 0 && (d = 0 || 4 < d) then 4 else d

/-- A command frame's command is checked and executed here, by `run`. Log 73: DEDUCED. -/
def runFrame (run : Job → State → State) (rsv cseq : Nat) (c : Cmd) (s : State) : State :=
  match frameFault rsv c s with
  | 0 => startHere run c (.frame cseq) s
  | d => finish (.frame cseq) c 2 d 0 0 s.tick s

/-- The queue of 16 commands has room for one more (R307): those that wait for their tick stand in it. -/
def State.queueRoom (s : State) : Bool := (s.hif.jobs.filter fun j => j.cseq.isSome && s.tick < j.start).length < 16

/-- A command frame taken in CSEQ order (R307): one that a check fails, or that starts now, has left the queue. -/
def takeFrame (rsv cseq : Nat) (c : Cmd) (s : State) : State :=
  let s := withDom (fun d => { d with cseqNext := (cseq + 1) % 256 }) s
  runFrame startJob rsv cseq c (when_ (frameFault rsv c s ≠ 0) (leaveQueue cseq) s)

/-- CSEQs passed over are taken and completed ABORTED, and CREDIT_RET moves past them (R307). -/
def skipCseq (from_ n : Nat) (dev : Nat) (s : State) : State :=
  (List.range n).foldl (fun s i => leaveQueue ((from_ + i) % 256) (complete (.frame ((from_ + i) % 256)) 0 0 0 dev 5 0 0 0 s.tick s)) s

/-- COMMAND_FRAME (R307, R317): in CSEQ order; a repeat has its completion sent again. A refused island, and the loader in
RECOVERY, take what R317 and R340 leave them, outside the books. -/
def execCommandFrame (h : Hdr) (cseq : BitVec 8) (c : Cmd) (s : State) : Out :=
  ok (onFrame h 3 1 (fun s =>
    let q := cseq.toNat
    if s.dom.serving || h.dst ≠ s.dom.dev then s
    else if s.dom.admitted && s.sys.mode ≠ 5 then
      let back := (s.dom.cseqNext + 256 - q) % 256
      if 1 ≤ back && back ≤ 16 then
        match s.dom.doneFrames.find? fun x => x.1 = q with
        | some x => send (.completion q x.2) s
        | none => s
      else
        let n := (q + 256 - s.dom.cseqNext) % 256
        if !s.queueRoom then s else takeFrame h.rsv q c (skipCseq s.dom.cseqNext n s.dom.dev s)
    else if (s.refusedIsland && refusedOp c.op.toNat) || (s.sys.mode = 5 && recoveryOp c.op.toNat) then runFrame runJob h.rsv q c s
    else s) s)

/-- COMPLETION_FRAME: a command that left a result for the host completes when channel 12 has read it (R365). Those of a refused module, whose commands all carry CSEQ 0, are told apart by TAG and OPCODE (R317). -/
def execCompletionFrame (h : Hdr) (cseq : BitVec 8) (x : Compl) (s : State) : Out :=
  ok (onFrame h 4 1 (fun s =>
    let d := s.srcOf h
    let p := s.peer d
    match p.flights.find? fun f => f.cseq = cseq.toNat && (h.src < 64 || (f.cmd.tag.toNat = x.tag && f.cmd.op.toNat = x.op)) with
    | some f =>
      let s' := setPeer d { p with flights := p.flights.erase f } s
      if !s.dom.serving then s
      else if resultLen x = 0 then completeFlight f x [] s'
      else arbitrate (nextFetch (withMem (fun m => { m with fetches := m.fetches ++ [{ dev := d, flight := f, compl := x }] }) s'))
    | none => s) s)

/-- COMMAND_RESEND (R309): after 100 ticks without cover, up to 3 times; then NO_DEVICE, and the device is de-admitted. -/
def execCommandResend (dev : Fin 64) (cseq : BitVec 8) (s : State) : Out :=
  ok (match (s.peer dev).flights.find? fun f => f.cseq = cseq.toNat && f.covered.isNone with
    | some f =>
      let p := s.peer dev
      if !s.dom.serving || s.tick < f.sent + 100 then s
      else if f.repeats < 3 then
        send (.command dev f.cseq f.cmd) (setPeer dev { p with flights := p.flights.map fun y =>
          if y = f then { y with sent := s.tick, repeats := y.repeats + 1 } else y } s)
      else
        let s := setPeer dev { p with flights := p.flights.erase f } s
        deadmit dev (finish f.origin f.cmd 3 0 0 0 s.tick s)
    | none => s)

/-- COMMAND_COMPLETION_TIMEOUT (R309): covered, and nothing 1 000 ticks later. -/
def execCommandCompletionTimeout (dev : Fin 64) (cseq : BitVec 8) (s : State) : Out :=
  ok (match (s.peer dev).flights.find? fun f => f.cseq = cseq.toNat with
    | some f =>
      let p := s.peer dev
      let due := match f.covered with
        | some t => t + 1000 ≤ s.tick
        | none => false
      if s.dom.serving && due then
        finish f.origin f.cmd 5 0 0 0 s.tick (setPeer dev { p with flights := p.flights.erase f } s)
      else s
    | none => s)

end Sys2Proof.Machine
end

