-- ==== Sys2Proof/Machine/Pci.lean ====
section
/-! DEFINITION. The endpoint's configuration space (11_host_rings R320, R322, R334). The items are the spec's; where they stand, and what
a write of them does, is the PCI Express base specification's. Log 99: PRESUMED. -/

namespace Sys2Proof.Machine

/-- The identity an endpoint presents (Table: Endpoint configuration). -/
structure Endpoint where
  vendor : Nat
  device : Nat
  revision : Nat
  classCode : Nat
  subVendor : Nat
  subsystem : Nat
deriving DecidableEq, Repr

/-- A host-attached role is an endpoint; a worker's transmitter stays in electrical idle (R320, R321). -/
def State.endpoint (s : State) : Option Endpoint :=
  if s.hosted && 4 ≤ s.sys.mode && s.hif.released then
    some { vendor := Config.vendorId, device := 0x6410, revision := Config.sysStep % 256, classCode := 0x088000,
           subVendor := Config.vendorId, subsystem := Config.subsystemId }
  else none

/-- Where the capabilities stand: power management, MSI-X, PCI Express, and Advanced Error Reporting. -/
def pmCap : Nat := 0x40
def msixCap : Nat := 0x50
def pcieCap : Nat := 0x60
def aerCap : Nat := 0x100

/-- Largest read the module issues, in bytes (R320). -/
def PciCfg.readMax (p : PciCfg) : Nat := min 512 (128 * 2 ^ p.mrrs)

/-- A doubleword of the configuration space. BAR0 is 64 KiB and BAR2 4 KiB, both 64 bits wide and not prefetchable; BAR4, BAR5 and the
expansion ROM read zero, as do Interrupt Pin and all that is not implemented. -/
def cfgValue (s : State) (o : Nat) : Nat :=
  let p := s.hif.pci
  match s.endpoint with
  | none => 0xFFFFFFFF
  | some z =>
    match o with
    | 0x00 => z.vendor % 65536 + 65536 * z.device
    | 0x04 => 2 ^ 20
    | 0x08 => z.revision + 256 * z.classCode
    | 0x10 => p.bar0 % 2 ^ 32 + 4
    | 0x14 => p.bar0 / 2 ^ 32
    | 0x18 => p.bar2 % 2 ^ 32 + 4
    | 0x1C => p.bar2 / 2 ^ 32
    | 0x2C => z.subVendor % 65536 + 65536 * (z.subsystem % 65536)
    | 0x34 => pmCap
    | 0x40 => 0x01 + 256 * msixCap + 65536 * 3
    | 0x44 => if p.d3 then 3 else 0
    | 0x50 => 0x11 + 256 * pcieCap + 65536 * (63 + 2 ^ 14 * b2n p.msixMask + 2 ^ 15 * b2n p.msixOn)
    | 0x54 => 0x800 + 2
    | 0x58 => 0xC00 + 2
    | 0x60 => 0x10 + 65536 * 2
    | 0x64 => 1 + 2 ^ 28
    | 0x68 => 32 * p.mps + 2 ^ 12 * p.mrrs
    | 0x6C => 2 + 16 * 1
    | 0x70 => 65536 * ((if Config.linkFast then 2 else 1) + 16 * 1)
    | 0x100 => 0x0001 + 65536 * 1
    | _ => 0

def withPci (f : PciCfg → PciCfg) (s : State) : State := { s with hif := { s.hif with pci := f s.hif.pci } }

/-- Vectors that are pending and no longer masked send their messages (R334). -/
def releaseVectors (s : State) : State :=
  if !s.hif.pci.msixOn || s.hif.pci.msixMask then s
  else (List.range 64).foldl (fun s n =>
    if s.hif.pba.getLsbD n && !s.hif.mask.getLsbD n then
      sendMsix n { s with hif := { s.hif with pba := s.hif.pba &&& ~~~ BitVec.ofNat 64 (2 ^ n) } }
    else s) s

/-- A configuration write: base addresses, D3hot (whose entry resets HIF, R322), MSI-X Enable and Function Mask, payload and read request
sizes, and a Function Level Reset (R322). -/
def cfgWrite (o : Nat) (v : Word) (s : State) : State :=
  let n := v.toNat
  match o with
  | 0x10 => withPci (fun p => { p with bar0 := p.bar0 / 2 ^ 32 * 2 ^ 32 + n / 65536 * 65536 }) s
  | 0x14 => withPci (fun p => { p with bar0 := p.bar0 % 2 ^ 32 + 2 ^ 32 * n }) s
  | 0x18 => withPci (fun p => { p with bar2 := p.bar2 / 2 ^ 32 * 2 ^ 32 + n / 4096 * 4096 }) s
  | 0x1C => withPci (fun p => { p with bar2 := p.bar2 % 2 ^ 32 + 2 ^ 32 * n }) s
  | 0x44 =>
    if n % 4 = 3 then (if s.hif.pci.d3 then s else withPci (fun p => { p with d3 := true }) (hifReset s))
    else if n % 4 = 0 then withPci (fun p => { p with d3 := false }) s
    else s
  | 0x50 => releaseVectors (withPci (fun p => { p with msixOn := bit n 31, msixMask := bit n 30 }) s)
  | 0x68 => if bit n 15 then hifReset s else withPci (fun p => { p with mps := min (bits n 7 5) 1, mrrs := min (bits n 14 12) 5 }) s
  | _ => s

/-- A configuration access reaches a module that attaches a host, once HIF is released. -/
def cfgAccess (o : Nat) (write : Bool) (v : Word) (s : State) : State :=
  if s.endpoint.isNone then s
  else if write then cfgWrite o v s
  else { s with hif := { s.hif with rd := BitVec.ofNat 32 (cfgValue s o) } }

end Sys2Proof.Machine
end

