-- ==== Sys2Proof/Machine/Regs.lean ====
section
/-! DEFINITION. The set-up registers (17_register_map R488 to R500, with the tables it names): what each reads as, what a
write of each does, pairs (R8, R395), and the access checks (R323, R324, R489, R490). -/

namespace Sys2Proof.Machine

def State.dbgLocked (s : State) : Bool := s.sec.tries = 3 || s.sec.unlocked

/-! What the registers read. -/

def offIn (lo hi off : Nat) : Bool := lo ≤ off && off ≤ hi

/-- A word-aligned BAR0 offset that R488 gives to a register, RSV registers included. -/
def regKnown (off : Nat) : Bool :=
  offIn 0x0000 0x0014 off || offIn 0x0400 0x0410 off || offIn 0x0800 0x0810 off || offIn 0x0C00 0x17FC off
    || offIn 0x2000 0x27FC off || offIn 0x2800 0x281C off || offIn 0x2C00 0x2C1C off || offIn 0x3000 0x300C off
    || offIn 0x3400 0x3414 off || offIn 0x3800 0x380C off || offIn 0x3840 0x387C off

/-- RTC window (Table: RTC registers), word `k`. Log 64: DEDUCED. -/
def rtcValue (s : State) (k : Nat) : Nat :=
  let r := s.rtc
  let c := r.shadow.getD r.cnt
  match k with
  | 0 => 128 * b2n r.autoTrim + 32 * (r.measSrc % 4) + 16 * b2n r.shore + 4 * b2n r.cmpEn + b2n r.halt
  | 1 => 32 * b2n r.vbatLost + 16 * b2n r.vbatLow + 8 * b2n r.wake + 4 * b2n r.skipped + 2 * b2n r.fired + b2n r.oscStop
  | 2 => r.readCntL r.shadow
  | 3 => c / 2 ^ 32
  | 4 => cal0 c
  | 5 => cal1 c
  | 6 => r.cmp.lo.toNat
  | 7 => r.cmp.hi.toNat
  | 8 => 2 ^ 31 * b2n r.wakeEn + r.period
  | 9 => tc 15 r.trim
  | 10 => 2 ^ 31 * b2n r.measValid + 2 ^ 29 * (r.measSrcOf % 4) + tc 16 r.measErr
  | 11 => 16 * b2n s.pwrOn + 8 * b2n r.latch + 4 * b2n r.hold + 2 * b2n r.onWake + b2n r.onCmp
  | _ => 0

/-- HIF_RING_CFG. -/
def Ring.cfgWord (r : Ring) : Nat :=
  2 ^ 31 * b2n r.enable + 2 ^ 30 * b2n r.active + 2 ^ 29 * b2n r.cfgErr + 2 ^ 22 * r.link + 2 ^ 16 * r.vector + 2 ^ 8 * r.log2 + r.type

/-- Ring slot, word `k`. -/
def ringValue (r : Ring) (k : Nat) : Nat :=
  [r.base.lo.toNat, r.base.hi.toNat, r.cfgWord, r.mod.toNat, r.shadow.lo.toNat, r.shadow.hi.toNat, r.pidx, r.cidx].getD k 0

/-- DMA channel slot of channel `c`, word `k` (R357, R358). The CTL of a firmware channel reads as the slot table resets it, whatever
the priority it is served at. Log 137: DESIGN CHOICE. -/
def chanValue (c : Nat) (x : Chan) (k : Nat) : Nat :=
  let prio := if c < 12 then x.prio else 0
  [2 ^ 29 * b2n x.pause + 2 ^ 28 * b2n (decide (12 ≤ c)) + 2 ^ 22 * b2n x.irq + 2 ^ 16 * x.vector + 16 * prio,
   2 ^ 16 * x.buf.length + 2 ^ 8 * x.err + 8 * b2n x.byCmd + x.state,
   x.src.lo.toNat, x.src.hi.toNat, x.dst.lo.toNat, x.dst.hi.toNat, x.len, x.done].getD k 0

/-- NET_PORT_STAT slot, word `k`. -/
def portValue (p : Port) (k : Nat) : Nat :=
  let speed := if !p.link then 0 else if p.gig then 2 else 1
  [2 ^ 10 * b2n p.hsr + 2 ^ 9 * b2n p.ring + 2 ^ 8 * b2n p.interlink + 32 * b2n p.swap + 16 * b2n p.pol + 8 * b2n p.master
     + 2 * speed + b2n p.link,
   p.pmac % 2 ^ 32, p.pmac / 2 ^ 32 % 65536, (divr (p.delays.foldl (· + ·) 0 : Nat) (max 1 p.delays.length : Nat)).toNat,
   p.discLong, p.discSpz].getD k 0

/-- NET window, word `k`. -/
def netValue (s : State) (k : Nat) : Nat :=
  if k = 0 then Config.mac % 2 ^ 32
  else if k = 1 then Config.mac / 2 ^ 32 % 65536
  else if k = 2 then 512 * b2n (s.port 1).busy + 256 * b2n (s.port 0).busy
  else if offIn 4 9 k then u32 (s.port 0).ct (4 * (k - 4))
  else if offIn 10 15 k then u32 (s.port 1).ct (4 * (k - 10))
  else if offIn 16 31 k then portValue (s.port ((k - 16) / 8)) ((k - 16) % 8)
  else 0

/-- Devices admitted as DOM_ADMIT shows them: none unless serving. -/
def State.admitMask (s : State) : Nat := if s.master then devMask (s.admittedDevs.filter (· ≠ s.dom.dev)) else 0

/-- DOM window, word `k` (R495). -/
def domValue (s : State) (k : Nat) : Nat :=
  [2 ^ 8 * dutyByte s + 16 * s.sys.role + s.sys.variant, s.dom.idNext, s.dom.dev, 65536 * s.dom.level + s.dom.levelSet,
   (s.time.trefNext.getD s.time.tref).toNat,
   2 ^ 31 * b2n s.time.refValid + 2 ^ 30 * b2n (s.ref ≠ 0 && !s.time.refValid) + 2 ^ 28 * s.ref,
   (s.dom.admShadow.getD s.admitMask) % 2 ^ 32, (s.dom.admShadow.getD s.admitMask) / 2 ^ 32].getD k 0

/-- SUP window, word `k` (R496). -/
def supValue (s : State) (k : Nat) : Nat :=
  if k = 0 then 2 ^ 31 * b2n s.sys.presentA + 2 ^ 30 * b2n s.sys.overA + s.sys.vinA % 65536
  else if k = 1 then 2 ^ 31 * b2n s.sys.presentB + 2 ^ 30 * b2n s.sys.overB + s.sys.vinB % 65536
  else if k = 7 then s.field.mains
  else 65536 * s.field.bands.getD (k - 2) 0 + s.field.lpMv.getD (k - 2) 0 % 65536

/-- MEM window, word `k` (R379). -/
def memValue (m : Mem) (k : Nat) : Nat :=
  [2 ^ 31 * b2n m.eccUnc + 2 ^ 30 * b2n m.eccCor + 2 ^ 24 * m.lastStore + min m.corrCnt 0xFFFFFF, m.eccAddr.toNat,
   65536 * m.flashPasses.toNat + m.dramPasses.toNat, 65536 * m.retired.toNat + m.reserve.toNat].getD k 0

/-- A_STATE and B_STATE (Table: PNL_STAT): PREPARE while a free panel has an operation waiting that it may take, RAILS_DOWN for the 4 ms
of Table: Panel B rail sequence, and in the tick of the request on panel A, whose rails the module does not sequence. Log 94: DEDUCED. -/
def Panel.shown (p : Panel) (i : Nat) (enabled : Bool) (tick : Nat) : Nat :=
  let waits := p.interrupted.isSome || p.pendClear.isSome || p.pendPage.isSome || p.pendHost.isSome || p.pendHold
  if p.st ≠ 0 then p.st
  else if p.op.isNone && waits && enabled then 1
  else if p.railDown.any fun t => tick < t + (if i = 0 then 1 else 4) then 6
  else 0

/-- PNL window, word `k` (R425). -/
def pnlValue (s : State) (k : Nat) : Nat :=
  let a := s.panel 0
  let b := s.panel 1
  [s.railCfg.toNat, 2 ^ 21 * b2n b.isMatch + 2 ^ 20 * b2n a.isMatch + 2 ^ 19 * b2n b.rails + 2 ^ 18 * b2n a.rails + 16 * b.shown 1 (s.panelEnabled 1) s.tick
     + a.shown 0 (s.panelEnabled 0) s.tick,
   a.crc, b.crc, a.expect.toNat, b.expect.toNat].getD k 0

/-- SEC window, word `k` (R497). -/
def secValue (s : State) (k : Nat) : Nat :=
  let ch := (Config.challenge s.sec.draws).toNat
  if k = 0 then s.mem.imgStat.toNat
  else if k = 1 then ch % 2 ^ 32
  else if k = 2 then ch / 2 ^ 32
  else if k = 3 then 512 * b2n s.sec.unlocked + 256 * b2n s.sec.fail + 16 * s.sec.tries
  else (s.sec.resp.getD (k - 16) 0).toNat

/-- What a read of BAR0 `off` returns (R491 to R500). -/
def regValue (s : State) (off : Nat) : Nat :=
  let k := off % 1024 / 4
  let t := s.time.shadow.getD s.tick
  if off < 0x0400 then [Config.sysId, Config.sysStep, s.sys.mode, 0, s.sys.violCnt, s.sys.violLast.toNat].getD k 0
  else if off < 0x0800 then
    [s.cause, b2n s.mem.optUse.setB, 2 ^ 20 * b2n s.sys.guard + 2 ^ 16 * s.sys.code + s.sys.ratio % 1024, 0,
     2 ^ 11 * b2n s.sys.blkForced + 2 ^ 8 * s.sys.blkState + s.sys.blkCode].getD k 0
  else if off < 0x0C00 then [t % 2 ^ 32, t / 2 ^ 32, s.time.off.lo.toNat, s.time.off.hi.toNat, s.time.lock.toNat % 128 + 128 * b2n s.rtc.running].getD k 0
  else if off < 0x1000 then rtcValue s k
  else if off < 0x2000 then ringValue (s.ring ((off - 0x1000) / 32)) (off % 32 / 4)
  else if off < 0x2400 then chanValue ((off - 0x2000) / 64) (s.chan ((off - 0x2000) / 64)) (off % 64 / 4)
  else if off < 0x2800 then netValue s k
  else if off < 0x2C00 then domValue s k
  else if off < 0x3000 then supValue s k
  else if off < 0x3400 then memValue s.mem k
  else if off < 0x3800 then pnlValue s k
  else secValue s k

/-! Registers with a row of their own. -/

/-- SYS_MODE_REQ (R480): a MODE_REQ to the module itself with APPLY_TICK 0; any other value is a violation. Log 61: DEDUCED. -/
def execSysModeReq (v : Word) (s : State) : Out :=
  ok (regWrite 0x000C (fun s =>
    let target := v.toNat % 16
    if v.toNat / 65536 ≠ 0x4D52 || (target ≠ 5 && target ≠ 7) then violate 3 true false 0x000C s
    else if !s.ticking then s
    else
      let c : Cmd := { ring := 0, op := 0x02, cls := 1, dev := BitVec.ofNat 6 s.dom.dev, arg1 := BitVec.ofNat 32 target }
      startHere runJob c .reg s) s)

/-- RST_BLOCK (R464, R490): locked while a block reset runs; without the key, with a code of no block, or in a mode the
table does not permit, a violation. -/
def execRstBlock (v : Word) (s : State) : Out :=
  ok (regWrite 0x040C (fun s =>
    let code := v.toNat % 256
    if s.blockRunning || v.toNat / 65536 ≠ 0x5242 || code ∉ blockCodes || !blockPermitted code s then violate 3 true false 0x040C s
    else beginBlock code none s) s)

/-- TICK_UTC_OFFSET_H (R493): the pair is applied, takes effect from the next edge, and TIME_STEP says by how much.
Log 63: DEDUCED. -/
def execTickUtcOffsetWrite (v : Word) (s : State) : Out :=
  ok (servingWrite 0x080C (fun s =>
    let p := s.time.off.second v
    let old := s.time.offNext.getD s.time.offset
    let new := sx 64 p.applied
    let s := { s with time := { s.time with off := p, offNext := some new } }
    if new = old then s else raise 0x97 (tc 32 (clampI (-2147483648) 2147483647 (new - old))) 0 s) s)

/-- TICK_NUM_L read (R500): the group is shadowed until the next such read. -/
def execTickNumLRead (s : State) : Out :=
  ok (regRead 0x0800 (fun s => withRd s.tick { s with time := { s.time with shadow := some s.tick } }) s)

/-- DOM_ADMIT_L read (R495, R500). -/
def execDomAdmitLRead (s : State) : Out :=
  ok (regRead 0x2818 (fun s => withRd s.admitMask (withDom (fun d => { d with admShadow := some s.admitMask }) s)) s)

/-- NET_CT_CTL written (R494). -/
def execNetCtReq (v : Word) (s : State) : Out :=
  ok (regWrite 0x2408 (fun s =>
    let s := if v.getLsbD 0 then requestCableTest 0 s else s
    if v.getLsbD 1 then requestCableTest 1 s else s) s)

/-- The RW bits of DOM_TREF. -/
def trefMask : Word := 0xFFFF7F07

/-- DOM_TREF (R303, R495): from the next edge. A module that may write it accepts an external tick (R19). -/
def execDomTrefWrite (v : Word) (s : State) : Out :=
  ok (servingWrite 0x2810 (fun s => { s with time := { s.time with trefNext := some (v &&& trefMask) } }) s)

/-- The message a debug response signs, and the response (R498). -/
def dbgMessage (s : State) : List Byte :=
  leBytes 8 (Config.challenge s.sec.draws).toNat ++ leBytes 4 Config.sysStep ++ leBytes 4 Config.sysId
def dbgResponse (s : State) : List Byte := (s.sec.resp.map fun w => leBytes 4 w.toNat).flatten

/-- SEC_DBG_UNLOCK written (R490, R498). -/
def execSecDbgVerify (v : Word) (s : State) : Out :=
  ok (regWrite 0x380C (fun s =>
    if s.dbgLocked then violate 3 true false 0x380C s
    else if !v.getLsbD 0 then s
    else if v.toNat / 65536 ≠ 0x554C then violate 3 true false 0x380C s
    else if Config.debugSigOk (dbgMessage s) (dbgResponse s) then { s with sec := { s.sec with unlocked := true, fail := false } }
    else { s with sec := { s.sec with fail := true, tries := s.sec.tries + 1, draws := s.sec.draws + 1, resp := List.replicate 16 0 } }) s)

/-! Pairs without a row of their own (R499). -/

/-- One half of a pair. -/
def Pair.half (p : Pair) (upper : Bool) (v : Word) : Pair := if upper then p.second v else p.first v

/-- A BASE or SHADOW register of ring `n`: word `k` of the slot, locked while ENABLE is set (R490). -/
def ringPair (n k : Nat) (v : Word) (s : State) : State :=
  let r := s.ring n
  if r.enable then violate 3 true false (ringOff n + 4 * k) s
  else
    let v := if k = 0 then v &&& 0xFFFFF000#32 else if k = 4 then v &&& 0xFFFFFFF8#32 else v
    if k < 2 then setRing n { r with base := r.base.half (k = 1) v } s else setRing n { r with shadow := r.shadow.half (k = 5) v } s

/-- A SRC or DST register of channel `c`: word `k` of the slot, locked while the channel runs, and on a firmware channel. -/
def chanPair (c k : Nat) (v : Word) (s : State) : State :=
  let x := s.chan c
  if 12 ≤ c || x.busy then violate 3 true false (chanOff c + 4 * k) s
  else if k < 4 then setChan c { x with src := x.src.half (k = 3) v } s else setChan c { x with dst := x.dst.half (k = 5) v } s

/-- REG_PAIR_WRITE (R395, R499): ring bases and shadows, DMA addresses, and the first registers of the UTC offset, the
counter and the compare. -/
def execRegPairWrite (off : BitVec 16) (v : Word) (s : State) : Out :=
  let o := off.toNat
  ok (if o = 0x0808 then servingWrite o (fun s => { s with time := { s.time with off := s.time.off.first v } }) s
    else if o = 0x0C08 then
      regWrite o (fun s => if s.rtc.halt then withRtc (fun r => { r with cntPair := r.cntPair.first v }) s else violate 3 true false o s) s
    else if o = 0x0C18 then regWrite o (withRtc fun r => { r with cmp := r.cmp.first v }) s
    else if offIn 0x1000 0x17FF o && o % 32 ∈ [0x00, 0x04, 0x10, 0x14] then regWrite o (ringPair ((o - 0x1000) / 32) (o % 32 / 4) v) s
    else if offIn 0x2000 0x23FF o && o % 64 ∈ [0x08, 0x0C, 0x10, 0x14] then regWrite o (chanPair ((o - 0x2000) / 64) (o % 64 / 4) v) s
    else s)

/-! REGISTER_WRITE. -/

/-- RTC_STAT: the W1C bits (Table: RTC_STAT). -/
def Rtc.statWrite (v : Word) (r : Rtc) : Rtc :=
  { r with vbatLost := r.vbatLost && !v.getLsbD 5, wake := r.wake && !v.getLsbD 3 }

/-- RW bits of PNL_RAIL_CFG. -/
def railMask : Word := 0x0003FFFF

/-- A write of a register that has no row of its own: stored, or ignored where it is read-only. -/
def plainWrite (o : Nat) (v : Word) (s : State) : State :=
  let lock := violate 3 true false o
  if o = 0x0C04 then withRtc (Rtc.statWrite v) s
  else if offIn 0x1000 0x17FC o && o % 32 = 0x0C then
    let n := (o - 0x1000) / 32
    if (s.ring n).enable then lock s else setRing n { s.ring n with mod := v } s
  else if offIn 0x2000 0x23FC o then
    let c := (o - 0x2000) / 64
    if 12 ≤ c then lock s
    else if o % 64 ≠ 0x18 then s
    else if (s.chan c).busy then lock s
    else setChan c { s.chan c with len := v.toNat } s
  else if o = 0x2804 then
    if s.sys.mode ≠ 7 || v.toNat % 65536 = 0 || v.toNat % 65536 = 0xFFFF then lock s
    else withDom (fun d => { d with idNext := v.toNat % 65536 }) s
  else if o = 0x280C then
    if !s.master then violate 4 true false o s
    else if s.sys.mode ≠ 7 then lock s
    else withDom (fun d => { d with levelSet := v.toNat % 65536 }) s
  else if o = 0x3000 then withMem (fun m => { m with eccUnc := m.eccUnc && !v.getLsbD 31, eccCor := m.eccCor && !v.getLsbD 30 }) s
  else if o = 0x3400 then { s with railCfg := v &&& railMask }
  else if o = 0x3410 then modPanel 0 (fun p => { p with expect := v, warned := if v = p.expect then p.warned else none }) s
  else if o = 0x3414 then modPanel 1 (fun p => { p with expect := v, warned := if v = p.expect then p.warned else none }) s
  else if offIn 0x3840 0x387C o then
    if s.dbgLocked then lock s else { s with sec := { s.sec with resp := s.sec.resp.set ((o - 0x3840) / 4) v } }
  else s

/-- A write of BAR0 `o`, by the register's row where it has one. The write of a DMA_CH_CTL finds the channel standing still.
Log 66: DESIGN CHOICE. -/
def writeReg (o : Nat) (v : Word) (s : State) : Out :=
  if o = 0x000C then execSysModeReq v s
  else if o = 0x040C then execRstBlock v s
  else if o = 0x080C then execTickUtcOffsetWrite v s
  else if o = 0x0C00 then (if v.getLsbD 0 then execRtcHaltSet v s else execRtcHaltClear v s)
  else if o = 0x0C0C then execRtcCntWrite v s
  else if o = 0x0C1C then execRtcCmpWrite v s
  else if o = 0x0C20 then execRtcWakeWrite v s
  else if o = 0x0C24 then execRtcTrimWrite v s
  else if o = 0x0C2C then execRtcPwronWrite v s
  else if o = 0x2408 then execNetCtReq v s
  else if o = 0x2810 then execDomTrefWrite v s
  else if o = 0x380C then execSecDbgVerify v s
  else if offIn 0x1000 0x17FC o && o % 32 = 0x08 then
    let n := Fin.ofNat 64 ((o - 0x1000) / 32)
    if v.getLsbD 31 then execRingEnable n v s else execRingDisable n v s
  else if offIn 0x2000 0x23FC o && o % 64 = 0 then
    let c := Fin.ofNat 16 ((o - 0x2000) / 64)
    if v.getLsbD 30 then execDmaChAbort c v [] 0 s
    else if v.getLsbD 31 then execDmaChStart c v s
    else if v.getLsbD 29 then execDmaChPauseSet c v [] 0 s
    else execDmaChPauseClear c v [] 0 s
  else if o = 0x0808 || o = 0x0C08 || o = 0x0C18 || (offIn 0x1000 0x17FC o && o % 32 ∈ [0x00, 0x04, 0x10, 0x14])
      || (offIn 0x2000 0x23FC o && o % 64 ∈ [0x08, 0x0C, 0x10, 0x14]) then execRegPairWrite (BitVec.ofNat 16 o) v s
  else ok (regWrite o (plainWrite o v) s)

/-- A read of BAR0 `o`; reads that take or release a shadow do so. -/
def readReg (o : Nat) (s : State) : Out :=
  if o = 0x0800 then execTickNumLRead s
  else if o = 0x0C08 then execRtcCntLRead s
  else if o = 0x0C14 then execRtcCal1Read s
  else if o = 0x2818 then execDomAdmitLRead s
  else ok (regRead o (fun s => withRd (regValue s o) s) s)

/-- One word of the MSI-X table (R320; the PCI Express base specification): word 3 of an entry holds the mask bit. A vector
unmasked while pending sends its message. -/
def msixWrite (i : Nat) (v : Word) (s : State) : State :=
  let n := i / 4
  if i % 4 ≠ 3 then { s with hif := { s.hif with vecs := tset 0 s.hif.vecs i v.toNat } }
  else
    let on := BitVec.ofNat 64 (2 ^ n)
    let s := { s with hif := { s.hif with mask := if v.getLsbD 0 then s.hif.mask ||| on else s.hif.mask &&& ~~~ on } }
    if !v.getLsbD 0 && s.hif.pba.getLsbD n then sendMsix n { s with hif := { s.hif with pba := s.hif.pba &&& ~~~ on } } else s

def msixRead (i : Nat) (s : State) : Nat :=
  if i % 4 = 3 then b2n (s.hif.mask.getLsbD (i / 4)) else tget 0 s.hif.vecs i

/-- An access to BAR2 (Table: BAR2 areas), reached as HIF is. A doorbell is written only (R324). Log 99: DEDUCED. -/
def bar2Access (o : Nat) (write : Bool) (v : Word) (s : State) : Out :=
  let bad := fun (k : Nat) => ok (badAccess k write true o s)
  if offIn 0x200 0x7FC o || 0xC08 ≤ o then bad 2
  else if !windowOpen s.sys.mode 0x1000 then bad 3
  else if o < 0x200 then
    if write then execDoorbell (Fin.ofNat 64 (o / 8)) (o % 8 = 4) v s else bad 5
  else if o < 0xC00 then ok (if write then msixWrite ((o - 0x800) / 4) v s else withRd (msixRead ((o - 0x800) / 4) s) s)
  else ok (if write then s else withRd (s.hif.pba.toNat / (if o = 0xC00 then 1 else 2 ^ 32)) s)

/-- REGISTER_WRITE: any access. The checks of R324 in their table's order: width and alignment, reserved address, reach.
Log 60: DEDUCED. -/
def execRegisterWrite (space : PciSpace) (off : BitVec 16) (width : Fin 9) (write : Bool) (v : Word) (s : State) : Out :=
  let o := off.toNat
  let second := decide (space = .bar2)
  if space = .cfg then ok (cfgAccess o write v s)
  else if !s.path then ok s
  else if width.val ≠ 4 || o % 4 ≠ 0 then ok (badAccess 1 write second o s)
  else if second then bar2Access o write v s
  else if !regKnown o then ok (badAccess 2 write false o s)
  else if write then writeReg o v s
  else readReg o s

end Sys2Proof.Machine
end

