-- ==== Sys2Proof/Machine/Console.lean ====
section
/-! DEFINITION. The console's option commands (16_power_reset_modes R468 to R470), in the RECOVERY and TEST variants. -/

namespace Sys2Proof.Machine

/-- The console takes commands: a powered module past BOOT whose variant is RECOVERY or TEST. -/
def State.hasConsole (s : State) : Bool := s.ticking && (s.sys.variant = 2 || s.sys.variant = 3)

/-- Lines printed. Log 93: DEDUCED. -/
def say (l : List ConLine) (s : State) : State := withMem (fun m => { m with console := m.console ++ l }) s

/-- A change of the pending values, answered OK; ERR with DETAIL `det` when it is not 0 (Table: Descriptor checks). -/
def optSet (det : Nat) (f : OptBlock → OptBlock) (s : State) : State :=
  if !s.hasConsole then s
  else if det ≠ 0 then say [.err det] s
  else say [.okay] (withMem (fun m => { m with optPend := f m.optPend }) s)

/-- The fields of the block in use. -/
def optFields (o : OptBlock) : List ConLine :=
  [.value "MAGIC" optMagic, .value "FORMAT" 1, .value "SEQ" o.seq.toNat, .value "SRCSET" (b2n o.setB), .value "DBG" (b2n o.dbgOpen),
   .value "IMG_PREF" (b2n o.prefB), .value "DEV_NUM" o.devNum.toNat, .value "DOMAIN_ID" o.domain.toNat, .value "LEVEL" o.level.toNat,
   .value "CRC" (crc16 (optBytes optMagic o)).toNat]

def execOptGet (s : State) : Out := ok (when_ s.hasConsole (fun s => say (optFields s.mem.optUse ++ [.okay]) s) s)

def execOptSetDev (n : Nat) (s : State) : Out :=
  ok (optSet (if 63 < n then 5 else 0) (fun o => { o with devNum := BitVec.ofNat 8 n }) s)

def execOptSetDomain (h : Nat) (s : State) : Out :=
  ok (optSet (if h = 0 || 0xFFFE < h then 5 else 0) (fun o => { o with domain := BitVec.ofNat 16 h }) s)

def execOptSetLevel (n : Nat) (s : State) : Out :=
  ok (optSet (if 65535 < n then 5 else 0) (fun o => { o with level := BitVec.ofNat 16 n }) s)

def execOptSetSrcset (setB : Bool) (s : State) : Out := ok (optSet 0 (fun o => { o with setB := setB }) s)

def execOptSetSlot (slotB : Bool) (s : State) : Out := ok (optSet 0 (fun o => { o with prefB := slotB }) s)

/-- DBG_OPEN in the TEST variant only. -/
def execOptSetDbg (open_ : Bool) (s : State) : Out :=
  ok (optSet (if s.sys.variant = 3 then 0 else 6) (fun o => { o with dbgOpen := open_ }) s)

/-- Both copies programmed, the older first. In the TEST variant the rows of the option commands stand for a write by JTAG too
(R470). Log 93: DEDUCED. -/
def execOptWrite (s : State) : Out :=
  ok (when_ s.hasConsole (fun s => say [.okay] (writeOpts s.mem.optPend s)) s)

end Sys2Proof.Machine
end

