-- ==== Sys2Proof/Machine/Edge.lean ====
section
/-! DEFINITION. TICK_EDGE (02_the_tick R16, R29, R33, R36, R39, R50, R55 to R62; 13_configuration_epochs R392): the swap, the
staged settings, the record block of the tick that begins, the Gust sent and the Gust applied, and what was due. -/

namespace Sys2Proof.Machine

/-! The tick that ends. -/

/-- The block of the tick that ends goes into the record, oldest blocks out. -/
def closeBlock (s : State) : State :=
  match s.rec_.block with
  | some b => { s with work := none, rec_ := { s.rec_ with block := none, blocks := keepBlocks s 1006632960 (b :: s.rec_.blocks) } }
  | none => { s with work := none }

/-- The channels that drove high in the last 500 µs of the tick that ends (R173). -/
def driven500 (f : Field) : BitVec 32 := BitVec.ofNat 32 ((List.range 32).foldl (fun a c => a + 2 ^ c * b2n (f.drives c)) 0)

/-- The repeat generators over the tick that ends, then with the periods applied at the edge (R177). -/
def nextGens (f : Field) : Tbl Gen := (List.range 32).foldl (fun t c =>
  match f.applied.dio.getD c .off with
  | .freq v => tset {} t c (((tget {} f.gens c).advance).apply (repeatPeriod v))
  | _ => t) []

/-- What acts from the edge: an engine that has caught up after its window is on duty (R262); the offset pair (R493), DOM_TREF
(R495), staged settings (R36), those of the lamps, which are driven on the logic side, also while the barrier link is dead
(R13, R17), but to no block in reset (R465); the queues of what was sent in the tick that ends start afresh. An announced switch whose Lull has gone by is void
(R390). Log 35: DEDUCED. -/
def beginTick (n : Nat) (strobe : Bool) (s : State) : State :=
  let t := s.time
  let tref := t.trefNext.getD t.tref
  let changed := tref.toNat % 4 ≠ t.tref.toNat % 4
  let t := { t with
    num := n, phase := 0, tref := tref, trefNext := none, refValid := t.refValid && !changed, refCount := if changed then 0 else t.refCount,
    offset := t.offNext.getD t.offset, offNext := none, offTick := if t.offNext.isSome then some n else none,
    off := match t.offNext with
      | some o => t.off.put (tc 64 o)
      | none => t.off }
  let f := s.field
  let f := { f with
    was := f.applied, drove := driven500 f
    applied := { (if f.stagedFull && !f.dead && !s.inReset 0x14 then f.driven f.staged else f.applied) with
      lamps := if s.inReset 0x13 then f.applied.lamps else f.staged.lamps }
    strobes := if !f.dead then f.strobes else if strobe then f.strobes + 1 else 0 }
  let f := { f with gens := nextGens f }
  let s := if s.eng.duty = 2 && s.eng.fault.isNone then { s with eng := s.eng.setDuty 1 } else s
  { s with time := t, field := f, net := { s.net with out := [] }, hif := { s.hif with msix := [] },
           cfg := { s.cfg with switch := s.cfg.switch.filter fun w => n < w.2 } }

/-! The Gust. -/

/-- The Gust of tick n − 1 that applies at n: the module's own when it serves, else the one received; an island applies none.
Log 32: DEDUCED. -/
def appliedGust (n : Nat) (s : State) : Option Gust :=
  let g := if s.master then s.dom.gustOut else if s.dom.island then none else s.dom.gustNow
  match g with
  | some g => if (g.tick + 1) % 2 ^ 48 = n then some g else none
  | none => none

/-- The Gust completed in the Lull leaves, on the ring from a module that serves a domain (R2, R26), and reception starts afresh. -/
def turnGust (s : State) : State :=
  let s := withDom (fun d => { d with
    gustOut := d.gustNext, gustNext := none, gustNow := none, segs := [], segTick := none, gustClosed := false, closed := false, own := none }) s
  match s.dom.gustOut with
  | some g => if s.domain then (List.range 4).foldl (fun s k => send (.gust k g) s) s else s
  | none => s

/-- An abort completes when the first Gust that cancels is sent, and the commit it cancels ends ABORTED (R392). -/
def completeAbort (s : State) : State :=
  match s.dom.pend, s.dom.gustOut with
  | some p, some g =>
    match p.cancel with
    | some c =>
      if p.announced && !g.pending then
        let abort := c.origin.toList.map fun o => (o, complete (.ring o.1 o.2) 0 c.tag 0x12 0 (okLate c.late) 0 0 0 c.at_)
        let commit := p.origin.toList.map fun o => (o, complete (.ring o.1 o.2) p.apply p.tag 0x11 0 5 0 0 0 p.start)
        (byRing (abort ++ commit)).foldl (fun s f => f s)
          { s with dom := { s.dom with pend := none }, cfg := { s.cfg with switch := s.cfg.switch.filter fun w => w.1 ≠ p.id } }
      else s
    | none => s
  | _, _ => s

/-! The record block. -/

/-- The tables as the record has them up to the tick that ended (R60): of the committed state, with the entries of blocks
that are still to be decided. -/
def tablesNow (s : State) : Dec :=
  let late := s.rec_.blocks.takeWhile fun b => match s.dec.lastTick with
    | some t => t < b.tick
    | none => true
  late.reverse.foldl (fun d b => b.ext.foldl applyTable d) s.dec

/-- Entries 0x02 to 0x04: what the applied Gust changes of the tables this module's epoch uses. Log 31: DEDUCED. -/
def tableExts (e : Epoch) (d : Dec) (g : Gust) : List Ext :=
  ((usedRemote e).filterMap fun i => let v := tget 15 g.pub i; if v ≠ tget 15 d.pub i then some (.remote i v) else none)
    ++ ((usedGroups e).filterMap fun i => let v := tget 0 g.dgrp i; if v ≠ tget 0 d.dgrp i then some (.dgrp i v) else none)
    ++ ((List.range 64).filterMap fun i => let v := tget 0 g.sess i; if v ≠ tget 0 d.sess i then some (.sess i v) else none)

/-- The inputs of a Gust that this module takes: valid ones (R7) addressed to it or to every module, and DUTY_SELECT where it serves. -/
def inputsFor (s : State) (g : Gust) : List GustInput :=
  g.inputs.filter fun x => s.inputOk x && (x.targetDev = s.dom.dev || x.targetDev = 0xFF || (x.opcode = 0x26 && s.dom.serving))

/-- Entries 0x08 to 0x0A of the manager, from the digests of the tick before; `prev` is the table its last Gust carried. -/
def digestExts (e : Epoch) (prev : Tbl Nat) (s : State) : List Ext :=
  (s.dom.digestsPrev.flatMap fun x => x.entries.filterMap fun y => match y.item with
      | .ev v => if v.kind = 1 && e.groups.any (fun m => m.dpid = x.dev * 1024 + v.point) then some (.digestEntry x.dev y) else none
      | .act _ => none)
    ++ (s.dom.digestsPrev.flatMap fun x => (List.range 128).filterMap fun j =>
      let v := tget 15 x.pub j
      if v ≠ tget 15 prev (128 * x.dev + j) then some (.digestPub x.dev j v) else none)
    ++ s.dom.missed.map .digestMissing

/-- The block of tick `n` is opened on the field part `b`, with `g` the Gust applied and `prev` the states of the Gust before
the one just sent (R59, R60). -/
def openBlock (n : Nat) (b : Block) (g : Option Gust) (prev : Tbl Nat) (s : State) : State :=
  let test := s.sys.mode = 6
  let absent := g.isNone && !test && (!s.dom.serving || s.dom.tookOver = some n)
  let count := if absent then s.dom.absent + 1 else 0
  let mine := (g.map (inputsFor s)).getD []
  let exts := (match g with
      | some g => tableExts s.cfg.e (tablesNow s) g
      | none => []) ++ mine.map .input
    ++ (if s.dom.staleDue then staleExts s.cfg.e (tablesNow s) else [])
    ++ (if s.dom.serving && !test then digestExts s.cfg.e prev s ++ s.dom.dropped.map (fun x => .digestEntry x.1 { item := .act x.2, queued := false })
      else []) ++ s.rec_.waiting.map .status
  let src := if s.dom.serving then s.dom.dev else s.dom.srcNow
  let b := { b with
    tick := n, gustAbsent := absent, island := s.dom.island, epochFirst := s.cfg.firstDue, catchup := s.eng.duty = 2, test := test
    mgrNew := g.isSome && (match s.dom.srcLast with
      | some x => decide (x ≠ src)
      | none => false)
    ckptCopy := s.rec_.copyDue && n % 65536 = 0, absentCnt := min count 9, epochId := s.epochId, ext := exts }
  { s with
    rec_ := { s.rec_ with block := some b, waiting := [], copyDue := false }
    cfg := { s.cfg with firstDue := false }
    time := { s.time with lastRec := if test then s.time.lastRec else some n }
    dom := { s.dom with absent := count, srcLast := if g.isSome then some src else s.dom.srcLast, staleDue := false, dropped := [] } }

/-- A block is written for `n`: in the modes that decide, past the last recorded tick (R29), and not after the tick of a
power-fail warning (R457); in TEST for every tick (R59). Log 36: DEDUCED. -/
def State.records (s : State) (n : Nat) : Bool :=
  s.sys.mode = 6 || (s.decides && (s.sys.powerFail.all fun w => n ≤ w) && s.time.lastRec.all fun l => l < n)

/-! What was due. -/

/-- Commands whose apply tick has come; a mode request waits for the Lull of its tick. -/
def startJobs (n : Nat) (s : State) : State :=
  let due := fun (j : Job) => j.start = n || (j.start < n && j.cmd.op ≠ 0x02)
  let js := s.hif.jobs.filter due
  (byRing (js.map fun j => (j.origin.place, j))).foldl (fun s j => startJob j s) { s with hif := { s.hif with jobs := s.hif.jobs.filter fun j => !due j } }

/-- At edge `n` PPS_IO is this module's to drive, and a whole second of UTC begins (R303, R512). Log 37: DEDUCED. -/
def State.ppsDrives (s : State) : Bool := 7 ≤ s.sys.mode && !(s.master && s.ref = 2)
def ppsEdge (n : Nat) (s : State) : Bool := decide (((n : Int) + s.time.offset) % 1000 = 0)

/-- PPS_IO rises at such an edge alone, for 100 ms. -/
def drivePps (n : Nat) (s : State) : State :=
  let left := if !s.ppsDrives then 0 else if ppsEdge n s then 100 else s.time.ppsLeft - 1
  { s with time := { s.time with ppsLeft := left, ppsOut := 0 < left } }

/-- The lamp tests that start at edge `n` (R430): each takes the lamps of its mask from those still running. -/
def startTests (n : Nat) (f : Field) : Field :=
  { f with lampNew := [], lampTests := f.lampNew.foldl (fun l j =>
      let mask := j.cmd.arg1.toNat % 65536
      (l.map fun t => (t.1, (BitVec.ofNat 16 t.2.1 &&& ~~~ BitVec.ofNat 16 mask).toNat, t.2.2)) ++ [(n + j.cmd.arg2.toNat - 1, mask, j)]) f.lampTests }

/-- The readback of routes that were opened other than at an epoch switch comes with the block of the window (R80, R81). -/
def breakRead (w : Window) (s : State) : State :=
  if s.field.broke && w.complete && !s.field.dead then
    let s := readBack s.field.route {} w.stuck (withField (fun f => { f with broke := false }) s)
    withField (fun f => { f with applied := f.driven f.applied }) s
  else s

/-- The field side's settings for the window that begins: the notch, and the channel settings of the epoch, under which a changed
channel's debouncer goes on (R113, R180). Log 143: DESIGN CHOICE. -/
def newSettings (e : Epoch) (f : Field) : Field :=
  if f.dead then f
  else { f with
    notch := f.notchNext, dioSet := tab 32 e.chan
    deb := (List.range 32).foldl (fun t c => if f.chan c ≠ e.chan c then tset {} t c ((tget {} f.deb c).under (e.chan c)) else t) f.deb }

/-- SUP_VIN_A and SUP_VIN_B follow their measurement (R496). -/
def readFeeds (mv : List Nat) (s : State) : State :=
  withSys (fun y => { y with vinA := mv.getD 0 y.vinA, vinB := mv.getD 1 y.vinB }) s

/-- The edge that begins tick `n` on a module whose ticks run. The window that ended had the notch of its own edge; the one that
begins has the one staged since (R12, R113). -/
def edge (w : Window) (n : Nat) (s : State) : State :=
  let s := flushShadows (writeArisen (readFeeds w.feedMv s))
  let g := appliedGust n s
  let prev := match s.dom.gustOut with
    | some x => x.pub
    | none => (s.dom.heard.head?.map (·.pub)).getD []
  let s := beginTick n w.strobe (closeBlock s)
  let s := completeAbort (turnGust (assumeRole n s))
  let s := breakRead w s
  let z := takeWindow w n s
  let s := voidGate (withField (newSettings s.cfg.e) z.2)
  let s := withDom (fun d => { d with inputs := (g.map (inputsFor s)).getD [] }) s
  let s := if s.records n then openBlock n z.1 g prev s else s
  let s := panelEdge n 1 (panelEdge n 0 s)
  let s := drivePps n (withField (startTests n) (startJobs n s))
  { s with time := { s.time with tickOut := 7 ≤ s.sys.mode && !(s.master && s.ref = 3) } }

/-- An edge that the core no longer has part in: the NET clock counts on, and the switch forwards by it (R460). Log 155: DEDUCED. -/
def switchEdge (s : State) : State :=
  { s with time := { s.time with num := (s.tick + 1) % 2 ^ 48, phase := 0 }, net := { s.net with out := [] }, work := none
           rec_ := { s.rec_ with block := none } }

/-- TICK_EDGE. After a power-fail warning's last tick no further tick is decided, but edges go on (R457). -/
def execTickEdge (w : Window) (s : State) : Out :=
  ok (if s.ticking then edge w ((s.tick + 1) % 2 ^ 48) s else if s.switching then switchEdge s else when_ (s.sys.mode = 4 && s.field.powered) (readInputs w) s)

end Sys2Proof.Machine
end

