-- ==== Sys2Proof/Machine/Dispatch.lean ====
section
/-! DEFINITION. The dispatch of the commands to their meanings, one arm per row of spec/opcode_table.json. -/

namespace Sys2Proof.Machine

def exec (i : Instr) (s : State) : Host.Outcome State Fault Refusal :=
  match i with
  | .tickEdge w => Sys2Proof.Machine.execTickEdge w s
  | .evaluatePhase => Sys2Proof.Machine.execEvaluatePhase s
  | .publishPhase => Sys2Proof.Machine.execPublishPhase s
  | .lullPhase diffMs => Sys2Proof.Machine.execLullPhase diffMs s
  | .checkpointWrite => Sys2Proof.Machine.execCheckpointWrite s
  | .gustDeadline => Sys2Proof.Machine.execGustDeadline s
  | .digestCutoff => Sys2Proof.Machine.execDigestCutoff s
  | .devLeft dev => Sys2Proof.Machine.execDevLeft dev s
  | .islandEntry => Sys2Proof.Machine.execIslandEntry s
  | .islandRejoin => Sys2Proof.Machine.execIslandRejoin s
  | .epochSwitch stuck => Sys2Proof.Machine.execEpochSwitch stuck s
  | .admissionTick => Sys2Proof.Machine.execAdmissionTick s
  | .managerListenEnd => Sys2Proof.Machine.execManagerListenEnd s
  | .servingStart => Sys2Proof.Machine.execServingStart s
  | .modeReqApply => Sys2Proof.Machine.execModeReqApply s
  | .blackoutRequest => Sys2Proof.Machine.execBlackoutRequest s
  | .blackoutExitRequest => Sys2Proof.Machine.execBlackoutExitRequest s
  | .gustSegment h payload localNs => Sys2Proof.Machine.execGustSegment h payload localNs s
  | .digestReceive h payload => Sys2Proof.Machine.execDigestReceive h payload s
  | .commandFrame h cseq c => Sys2Proof.Machine.execCommandFrame h cseq c s
  | .completionFrame h cseq c => Sys2Proof.Machine.execCompletionFrame h cseq c s
  | .commandResend dev cseq => Sys2Proof.Machine.execCommandResend dev cseq s
  | .commandCompletionTimeout dev cseq => Sys2Proof.Machine.execCommandCompletionTimeout dev cseq s
  | .joinRequestSend => Sys2Proof.Machine.execJoinRequestSend s
  | .joinRequest h r => Sys2Proof.Machine.execJoinRequest h r s
  | .joinResponse h r => Sys2Proof.Machine.execJoinResponse h r s
  | .statusFrameSend => Sys2Proof.Machine.execStatusFrameSend s
  | .statusFrame h block => Sys2Proof.Machine.execStatusFrame h block s
  | .managerStream h x => Sys2Proof.Machine.execManagerStream h x s
  | .bulkFrame h b => Sys2Proof.Machine.execBulkFrame h b s
  | .bulkRetry chan => Sys2Proof.Machine.execBulkRetry chan s
  | .managerLost => Sys2Proof.Machine.execManagerLost s
  | .ptpSyncReceive port x domain master offsetNs => Sys2Proof.Machine.execPtpSyncReceive port x domain master offsetNs s
  | .ptpAnnounceReceive port domain dataset master utcOffset => Sys2Proof.Machine.execPtpAnnounceReceive port domain dataset master utcOffset s
  | .pdelayExchange port delayNs => Sys2Proof.Machine.execPdelayExchange port delayNs s
  | .ptpMasterSend announce => Sys2Proof.Machine.execPtpMasterSend announce s
  | .hsrSupervisionSend => Sys2Proof.Machine.execHsrSupervisionSend s
  | .supervisionFrame port x => Sys2Proof.Machine.execSupervisionFrame port x s
  | .frameForward port src seq cls own len transit => Sys2Proof.Machine.execFrameForward port src seq cls own len transit s
  | .linkUp port gig master swap pol => Sys2Proof.Machine.execLinkUp port gig master swap pol s
  | .linkDown port => Sys2Proof.Machine.execLinkDown port s
  | .hsrPartnerTimeout port => Sys2Proof.Machine.execHsrPartnerTimeout port s
  | .cableTest port => Sys2Proof.Machine.execCableTest port s
  | .cableTestDone port pairs => Sys2Proof.Machine.execCableTestDone port pairs s
  | .timeRefChange valid => Sys2Proof.Machine.execTimeRefChange valid s
  | .timeAlign => Sys2Proof.Machine.execTimeAlign s
  | .tickOverrun => Sys2Proof.Machine.execTickOverrun s
  | .rowanTakeover cause => Sys2Proof.Machine.execRowanTakeover cause s
  | .catchupComplete => Sys2Proof.Machine.execCatchupComplete s
  | .engineSelftestDone b pass => Sys2Proof.Machine.execEngineSelftestDone b pass s
  | .engineResync b sound => Sys2Proof.Machine.execEngineResync b sound s
  | .auditStart => Sys2Proof.Machine.execAuditStart s
  | .auditEnd unsound => Sys2Proof.Machine.execAuditEnd unsound s
  | .eccCorrected x b => Sys2Proof.Machine.execEccCorrected x b s
  | .uncorrectableError x b => Sys2Proof.Machine.execUncorrectableError x b s
  | .scrubPass x => Sys2Proof.Machine.execScrubPass x s
  | .eventPageFlush => Sys2Proof.Machine.execEventPageFlush s
  | .seqReservation verified => Sys2Proof.Machine.execSeqReservation verified s
  | .por => Sys2Proof.Machine.execPor s
  | .resetN p => Sys2Proof.Machine.execResetN p s
  | .heartbeat => Sys2Proof.Machine.execHeartbeat s
  | .resetRelease ratios perstHigh => Sys2Proof.Machine.execResetRelease ratios perstHigh s
  | .bootDone pass coils => Sys2Proof.Machine.execBootDone pass coils s
  | .vinLost b mv => Sys2Proof.Machine.execVinLost b mv s
  | .vinRestored b mv => Sys2Proof.Machine.execVinRestored b mv s
  | .powerFail mvA mvB => Sys2Proof.Machine.execPowerFail mvA mvB s
  | .powerFailAreaDone => Sys2Proof.Machine.execPowerFailAreaDone s
  | .vbatApplied mv => Sys2Proof.Machine.execVbatApplied mv s
  | .backupDomainStart => Sys2Proof.Machine.execBackupDomainStart s
  | .hifReset cause => Sys2Proof.Machine.execHifReset cause s
  | .barrierLinkLoss => Sys2Proof.Machine.execBarrierLinkLoss s
  | .barrierLinkRestore => Sys2Proof.Machine.execBarrierLinkRestore s
  | .rangeDown cell => Sys2Proof.Machine.execRangeDown cell s
  | .seamEnd cell => Sys2Proof.Machine.execSeamEnd cell s
  | .crossCheckFail cell => Sys2Proof.Machine.execCrossCheckFail cell s
  | .settlingEnd cell => Sys2Proof.Machine.execSettlingEnd cell s
  | .lswLimit sw => Sys2Proof.Machine.execLswLimit sw s
  | .lswReclose sw => Sys2Proof.Machine.execLswReclose sw s
  | .loopVoltage out => Sys2Proof.Machine.execLoopVoltage out s
  | .loutOffProt out => Sys2Proof.Machine.execLoutOffProt out s
  | .loutRetry out => Sys2Proof.Machine.execLoutRetry out s
  | .loutResume out => Sys2Proof.Machine.execLoutResume out s
  | .dioProtectionOff x => Sys2Proof.Machine.execDioProtectionOff x s
  | .dioRedrive chan => Sys2Proof.Machine.execDioRedrive chan s
  | .demagMeasure chan tdUs ionMa vlpMv up => Sys2Proof.Machine.execDemagMeasure chan tdUs ionMa vlpMv up s
  | .lampProtectionOff x => Sys2Proof.Machine.execLampProtectionOff x s
  | .lampRedrive lamp => Sys2Proof.Machine.execLampRedrive lamp s
  | .onDelayExpiry p => Sys2Proof.Machine.execOnDelayExpiry p s
  | .offDelayExpiry p => Sys2Proof.Machine.execOffDelayExpiry p s
  | .inhibitRelease p => Sys2Proof.Machine.execInhibitRelease p s
  | .shelveExpired p => Sys2Proof.Machine.execShelveExpired p s
  | .rateWindowEnd p => Sys2Proof.Machine.execRateWindowEnd p s
  | .freqGateEnd chan => Sys2Proof.Machine.execFreqGateEnd chan s
  | .escalate session => Sys2Proof.Machine.execEscalate session s
  | .wkPrewarn session => Sys2Proof.Machine.execWkPrewarn session s
  | .wkCall session => Sys2Proof.Machine.execWkCall session s
  | .keyPress chan => Sys2Proof.Machine.execKeyPress chan s
  | .selectorSettle session => Sys2Proof.Machine.execSelectorSettle session s
  | .doorbell ring upper x => Sys2Proof.Machine.execDoorbell ring upper x s
  | .ringEnable ring cfg => Sys2Proof.Machine.execRingEnable ring cfg s
  | .ringDisable ring cfg => Sys2Proof.Machine.execRingDisable ring cfg s
  | .msixMessage ring => Sys2Proof.Machine.execMsixMessage ring s
  | .completionRelease ring => Sys2Proof.Machine.execCompletionRelease ring s
  | .eventWriteResume ring => Sys2Proof.Machine.execEventWriteResume ring s
  | .nop c => Sys2Proof.Machine.execNop c s
  | .modeReq c => Sys2Proof.Machine.execModeReq c s
  | .statusGet c => Sys2Proof.Machine.execStatusGet c s
  | .cfgStage c => Sys2Proof.Machine.execCfgStage c s
  | .cfgCommit c => Sys2Proof.Machine.execCfgCommit c s
  | .cfgAbort c => Sys2Proof.Machine.execCfgAbort c s
  | .ack c => Sys2Proof.Machine.execAck c s
  | .silence c => Sys2Proof.Machine.execSilence c s
  | .shelve c => Sys2Proof.Machine.execShelve c s
  | .unshelve c => Sys2Proof.Machine.execUnshelve c s
  | .oosSet c => Sys2Proof.Machine.execOosSet c s
  | .oosClear c => Sys2Proof.Machine.execOosClear c s
  | .dutySelect c => Sys2Proof.Machine.execDutySelect c s
  | .survey c => Sys2Proof.Machine.execSurvey c s
  | .surveyDone pins pairs => Sys2Proof.Machine.execSurveyDone pins pairs s
  | .leadMeasure c => Sys2Proof.Machine.execLeadMeasure c s
  | .leadMeasureDone unfit pick => Sys2Proof.Machine.execLeadMeasureDone unfit pick s
  | .panelUpdate c => Sys2Proof.Machine.execPanelUpdate c s
  | .panelClear c => Sys2Proof.Machine.execPanelClear c s
  | .lampTest c => Sys2Proof.Machine.execLampTest c s
  | .lampTestEnd => Sys2Proof.Machine.execLampTestEnd s
  | .dmaStart c => Sys2Proof.Machine.execDmaStart c s
  | .dmaPause c data wr => Sys2Proof.Machine.execDmaPause c data wr s
  | .dmaResume c => Sys2Proof.Machine.execDmaResume c s
  | .recPull c => Sys2Proof.Machine.execRecPull c s
  | .evtReread c => Sys2Proof.Machine.execEvtReread c s
  | .imgStage c => Sys2Proof.Machine.execImgStage c s
  | .imgActivate c => Sys2Proof.Machine.execImgActivate c s
  | .auditNow c => Sys2Proof.Machine.execAuditNow c s
  | .blockReset c => Sys2Proof.Machine.execBlockReset c s
  | .blockResetDone idle => Sys2Proof.Machine.execBlockResetDone idle s
  | .dmaChStart chan ctl => Sys2Proof.Machine.execDmaChStart chan ctl s
  | .dmaChAbort chan ctl data wr => Sys2Proof.Machine.execDmaChAbort chan ctl data wr s
  | .dmaChPauseSet chan ctl data wr => Sys2Proof.Machine.execDmaChPauseSet chan ctl data wr s
  | .dmaChPauseClear chan ctl data wr => Sys2Proof.Machine.execDmaChPauseClear chan ctl data wr s
  | .dmaDrainDone chan => Sys2Proof.Machine.execDmaDrainDone chan s
  | .dmaTransferDone chan data => Sys2Proof.Machine.execDmaTransferDone chan data s
  | .dmaReadFailure chan data err => Sys2Proof.Machine.execDmaReadFailure chan data err s
  | .sysModeReq v => Sys2Proof.Machine.execSysModeReq v s
  | .rstBlock v => Sys2Proof.Machine.execRstBlock v s
  | .tickUtcOffsetWrite v => Sys2Proof.Machine.execTickUtcOffsetWrite v s
  | .rtcCntWrite v => Sys2Proof.Machine.execRtcCntWrite v s
  | .rtcCmpWrite v => Sys2Proof.Machine.execRtcCmpWrite v s
  | .rtcHaltSet v => Sys2Proof.Machine.execRtcHaltSet v s
  | .rtcHaltClear v => Sys2Proof.Machine.execRtcHaltClear v s
  | .rtcCmpEnSet v => Sys2Proof.Machine.execRtcCmpEnSet v s
  | .rtcMeasSrcWrite v => Sys2Proof.Machine.execRtcMeasSrcWrite v s
  | .rtcWakeWrite v => Sys2Proof.Machine.execRtcWakeWrite v s
  | .rtcTrimWrite v => Sys2Proof.Machine.execRtcTrimWrite v s
  | .rtcPwronWrite v => Sys2Proof.Machine.execRtcPwronWrite v s
  | .rtcCntLRead => Sys2Proof.Machine.execRtcCntLRead s
  | .rtcCal1Read => Sys2Proof.Machine.execRtcCal1Read s
  | .rtcShadowTimeout => Sys2Proof.Machine.execRtcShadowTimeout s
  | .tickNumLRead => Sys2Proof.Machine.execTickNumLRead s
  | .domAdmitLRead => Sys2Proof.Machine.execDomAdmitLRead s
  | .netCtReq v => Sys2Proof.Machine.execNetCtReq v s
  | .domTrefWrite v => Sys2Proof.Machine.execDomTrefWrite v s
  | .secDbgVerify v => Sys2Proof.Machine.execSecDbgVerify v s
  | .regPairWrite off v => Sys2Proof.Machine.execRegPairWrite off v s
  | .registerWrite space off width write v => Sys2Proof.Machine.execRegisterWrite space off width write v s
  | .panelFrame panel rails => Sys2Proof.Machine.execPanelFrame panel rails s
  | .panelOperationStart panel => Sys2Proof.Machine.execPanelOperationStart panel s
  | .railCheck panel rails => Sys2Proof.Machine.execRailCheck panel rails s
  | .panelOperationEnd panel => Sys2Proof.Machine.execPanelOperationEnd panel s
  | .railHoldExpiry panel => Sys2Proof.Machine.execRailHoldExpiry panel s
  | .holdRefreshDue panel => Sys2Proof.Machine.execHoldRefreshDue panel s
  | .panelCrcRecheck panel crc => Sys2Proof.Machine.execPanelCrcRecheck panel crc s
  | .pageCompose panel => Sys2Proof.Machine.execPageCompose panel s
  | .panelRecovery panel => Sys2Proof.Machine.execPanelRecovery panel s
  | .rtcCompareFire => Sys2Proof.Machine.execRtcCompareFire s
  | .rtcWakeFire => Sys2Proof.Machine.execRtcWakeFire s
  | .oscStop => Sys2Proof.Machine.execOscStop s
  | .trimGateEnd src ends => Sys2Proof.Machine.execTrimGateEnd src ends s
  | .vbatLowCheck mv => Sys2Proof.Machine.execVbatLowCheck mv s
  | .workerRtcSync => Sys2Proof.Machine.execWorkerRtcSync s
  | .optGet => Sys2Proof.Machine.execOptGet s
  | .optSetDev n => Sys2Proof.Machine.execOptSetDev n s
  | .optSetDomain h => Sys2Proof.Machine.execOptSetDomain h s
  | .optSetLevel n => Sys2Proof.Machine.execOptSetLevel n s
  | .optSetSrcset setB => Sys2Proof.Machine.execOptSetSrcset setB s
  | .optSetSlot slotB => Sys2Proof.Machine.execOptSetSlot slotB s
  | .optSetDbg open_ => Sys2Proof.Machine.execOptSetDbg open_ s
  | .optWrite => Sys2Proof.Machine.execOptWrite s
  | .rangeUp cell loss => Sys2Proof.Machine.execRangeUp cell loss s
  | .vbatLoss => Sys2Proof.Machine.execVbatLoss s
  | .pePerstNRelease => Sys2Proof.Machine.execPePerstNRelease s
  | .ppsIoInputPulse us diffMs => Sys2Proof.Machine.execPpsIoInputPulse us diffMs s
  | .tickIoInputPulse ns => Sys2Proof.Machine.execTickIoInputPulse ns s
  | .hsrRingOpen port => Sys2Proof.Machine.execHsrRingOpen port s
  | .panelRailRetry panel => Sys2Proof.Machine.execPanelRailRetry panel s
  | .barrierLinkStable => Sys2Proof.Machine.execBarrierLinkStable s

end Sys2Proof.Machine
end

