-- ==== Sys2Proof/Machine/Step.lean ====
section
/-! DEFINITION. One step: the command at the front of the queue; on an empty queue one period of the 32.768 kHz oscillator. -/

namespace Sys2Proof.Machine

/-- What passes with no command: one oscillator period of the backup domain where it is supplied (R437, R445, R448 to R450). -/
def idle (s : State) : State := when_ (s.sys.mode ≠ 1) (withRtc Rtc.osc) s

/-- Log 2: DESIGN CHOICE. -/
def step (s : State) : Host.Outcome State Fault Refusal :=
  match s.pending with
  | [] => .next (idle s)
  | c :: rest => exec c { s with pending := rest }

/-- `s` with the command that a word spells in front of its queue. -/
def State.withFetchWord (s : State) (nbits w : Nat) : State :=
  match decodeTableWord nbits w with
  | some c => { s with pending := c :: s.pending }
  | none => s

end Sys2Proof.Machine
end

