-- ==== Sys2Proof/Machine/Pins.lean ====
section
/-! DEFINITION. What the module shows outside its registers and frames: its balls by mode (16_power_reset_modes R463, R487,
with R19, R322, R451, R455, R461, R471, R512), the panel bus and rails (14_panels_and_lamps R397, R398, R412) and
the lamp sinks (R426). All of it follows from the state. -/

namespace Sys2Proof.Machine

/-- A logic-side ball: driven, open or an input, or held by the 50 kΩ resistor of R463. -/
inductive Ball where
  | high
  | low
  | float
  | pullUp
  | pullDown
deriving DecidableEq, Repr

/-- RESET or BOOT, in which the balls stand as R463 has them. -/
def State.starting (s : State) : Bool := s.sys.mode = 3 || s.sys.mode = 4

/-- RESET_N (R461, R463): low for the whole stretch; otherwise the pull-up that every powered mode has. -/
def State.resetN (s : State) : Ball := if s.sys.mode ≤ 2 then .float else if s.sys.mode = 3 then .low else .pullUp

/-- PE_CLKREQ_N: low while the module is supplied (R322). -/
def State.clkReqN (s : State) : Ball := if s.sys.mode ≤ 2 then .float else .low

/-- NODE_OK conducts to GND (R477); it is open in a module that is not supplied (R506). -/
def State.nodeClosed (s : State) : Bool := 3 ≤ s.sys.mode && s.sys.nodeOk

/-- V33_OUT delivers 3.3 V (R455). -/
def State.v33Out (s : State) : Bool := s.sys.v33

/-- TICK_IO and PPS_IO in the first 100 µs of a tick (R19, R303, R512): an input of the reference has its pull-up. -/
def State.tickIo (s : State) : Ball :=
  if s.sys.mode ≤ 2 then .float else if s.sys.mode ≤ 5 || (s.master && s.ref = 3) then .pullUp
  else if s.time.tickOut then .high else .low
def State.ppsIo (s : State) : Ball :=
  if s.sys.mode ≤ 2 then .float else if s.sys.mode ≤ 5 || (s.master && s.ref = 2) then .pullUp
  else if s.time.ppsOut then .high else .low

/-- The source of a pin is switched through to it; a loop-supply switch in foldback is open (R133). -/
def State.pinFed (s : State) (n : Nat) : Bool :=
  let p := s.field.route.pin n
  p.srcKind ≠ 0 && !s.sourceOff p.srcKind p.srcIndex && (p.srcKind ≠ 4 || s.lswPin p.srcIndex)

/-- On barrier-link loss the one switch that stays closed joins a loop output driving a current to its pin (R13, R149). -/
def State.loopKept (s : State) (n : Nat) : Bool :=
  s.field.dead && 5 < s.sys.mode && n ∈ s.field.loopPins

/-- A burden on pin `n` is switched through: it opens with the cells shed when they alone sense its pin (R81, R149). -/
def State.burdenOn (s : State) (n : Nat) : Bool :=
  let r := s.field.route
  let users := (List.range 64).filter fun k => (r.cellR k).pPin = n || (r.cellR k).nPin = n
  (r.pin n).burPresent && !(users ≠ [] && users.all fun k => s.field.shed.getLsbD k)

/-- An AF pin is open: nothing on it is switched through (R69, R487), and no stuck switch joins it (R80). -/
def State.afOpen (s : State) (n : Nat) : Bool :=
  let r := s.field.route
  !s.field.stuckPin n
    && (if s.routesOpen then !s.loopKept n
      else onPins s.field.survPins n
        || (!s.pinFed n && !s.burdenOn n && !(r.pin n).gndTie
          && (List.range 64).all fun k => s.cellOff k || ((r.cellR k).pPin ≠ n && (r.cellR k).nPin ≠ n)))

/-- What a DIO output drives (R172): nothing while protection has it off or its LPb is missing, nor from a channel that its settings
make an input (R180). -/
def State.dioPin (s : State) (c : Nat) : DioCmd :=
  if tget 0 s.field.dioOff c = 0 && s.field.bands.getD (c / 8) 0 ≠ 2 && (s.field.chan c).dir = 2 then s.field.applied.dio.getD c .off else .off

/-- What a lamp sink drives (R426, R430): a test of the lamp overrides it, protection has it dark. -/
def State.lampPin (s : State) (n : Nat) : LampCmd :=
  if tget 0 s.field.lampOff n ≠ 0 then .dark
  else if s.field.lampTests.any fun t => s.tick ≤ t.1 && bit t.2.1 n then .lit ((s.cfg.e.lamps.getD []).getD n {}).current 255
  else s.field.applied.lamps.getD n .dark

/-- The PHYs are powered: from BOOT on; before it their MDI pins are high impedance (R487). -/
def State.mdiPowered (s : State) : Bool := 4 ≤ s.sys.mode

/-- CON_TX at rest: the console's idle level, and the level it keeps from CONFIGURE on (R487). -/
def State.conTx (s : State) : Ball := if s.sys.mode ≤ 2 then .float else if s.starting then .pullUp else .high

/-- The JTAG port is open (R471, R487): DBG_OPEN in force, or unlocked since the last reset. -/
def State.jtagOpen (s : State) : Bool := 5 ≤ s.sys.mode && (s.mem.optUse.dbgOpen || s.sec.unlocked)

/-- What a JTAG port is asked for. -/
inductive JtagUse where
  | bypass
  | idcode
  | boundaryScan
  | debug
deriving DecidableEq, Repr

/-- A locked port offers BYPASS, IDCODE and boundary scan only (R471); an unpowered one nothing. -/
def State.jtagOffers (s : State) (u : JtagUse) : Bool := 3 ≤ s.sys.mode && (u ≠ .debug || s.jtagOpen)

/-- CON_RX, the JTAG balls, PE_PERST_N and PE_WAKE_N: the pull-up of R463 in RESET and BOOT; afterwards the module drives none of
them (R322, R487). -/
def State.inputBall (s : State) : Ball := if s.starting then .pullUp else .float

/-- The lines of the panel bus at `t` PANEL clocks, as balls, but for what a frame drives: pull-downs in RESET and BOOT, so that no
panel's drivers take the bus (R463); low at rest in the powered modes after them (R398, R487). -/
def State.panelBall (s : State) (level : Bool) : Ball :=
  if s.sys.mode ≤ 2 then .low else if s.starting then .pullDown else if level then .high else .low

/-! The panel bus (R397, R398, R412). -/

/-- The lines of the bus in one PANEL clock: which panel's drivers have it, and each line's level. -/
structure PanelBus where
  sel : Option Nat := none
  ckv : Bool := false
  spv : Bool := false
  le : Bool := false
  oe : Bool := false
  clk : Bool := false
  d : Nat := 0
deriving DecidableEq, Repr

/-- Table: Panel frame events at `t` clocks after the frame's edge, for the drive code of each column and row. -/
def frameBus (i : Nat) (drive : Nat → Nat → Nat) (t : Nat) : PanelBus :=
  let p := t / 264
  let q := t % 264
  if 211200 ≤ t then {}
  else
    let data := 4 ≤ p && p ≤ 771 && 8 ≤ q
    { sel := some i, ckv := q < 80, spv := 1100 ≤ t && t < 1400, le := 5 ≤ p && p ≤ 772 && (q = 2 || q = 3)
      oe := 5 ≤ p && p ≤ 772 && 6 ≤ q && q ≤ 259, clk := data
      d := if data then pack 2 (tab 4 fun j => drive (4 * (q - 8) + j) (p - 4)) else 0 }

/-- Drive codes of the frame that panel `i` is in, the last begun; columns and rows beyond the panel carry none (R398, R399). -/
def State.frameDrive (s : State) (i x y : Nat) : Nat :=
  let p := s.panel i
  let c := s.cfg.e.panelSet i
  match p.op with
  | some o => if p.frame ≠ 0 && x < c.width && y < c.height then driveOf c (waveBand s.cfg.e i p.band) o p.old p.new (p.frame - 1) x y else 0
  | none => 0

/-- The lines of the bus `t` PANEL clocks of 25 ns after the edge of the tick in progress (R397): those of the panel whose frame is
in progress, and otherwise low. -/
def State.panelBus (s : State) (t : Nat) : PanelBus :=
  let at_ := fun (i : Nat) => (s.panel i).frameAt.bind fun f =>
    let k := 40000 * (s.tick - f) + t
    if (s.panel i).op.isSome && k < 211200 then some (frameBus i (s.frameDrive i) k) else none
  (at_ 0).getD ((at_ 1).getD {})

/-- Panel B's rails at a number of ms after the request (Table: Panel B rail sequence): VGH, VGL, VPOS and VNEG switched on. -/
def railsOnB (up : Bool) (ms : Nat) : List Bool := if up then [3 ≤ ms, 1 ≤ ms, 2 ≤ ms, true] else [false, ms < 2, ms < 1, ms < 3]

/-- Panel B's rails in the tick in progress, a tick being 1 ms (R412): those of the sequence that its last request started; what a
switch-off finds not yet on stays off. -/
def State.railsB (s : State) : List Bool :=
  let p := s.panel 1
  let since := fun (t : Option Nat) (n : Nat) => n - t.getD 0
  if p.railsUp then railsOnB true (since p.railAt s.tick)
  else match p.railDown with
    | some d => (railsOnB true (since p.railAt d)).zipWith (· && ·) (railsOnB false (since p.railDown s.tick))
    | none => [false, false, false, false]

/-- PNL_RAIL_EN_A is driven high while panel A's rails are asked for (R411); a pull-down holds it low in RESET and BOOT. -/
def State.railEnA (s : State) : Ball :=
  if s.sys.mode ≤ 2 then .float else if s.starting then .pullDown else if (s.panel 0).railsUp then .high else .low

end Sys2Proof.Machine
end

