-- ==== Sys2Proof/Safety.lean ====
section
/-! DEFINITION. What claims use: runs, the canonical form of the addressed memories, and the module's own invariant. -/

namespace Sys2Proof.Machine

/-- States reached from `s` by steps, the host of commands adding to the queue between them. -/
inductive Reaches (s : State) : State → Prop where
  | refl : Reaches s s
  | queue (t : State) (c : Instr) : Reaches s t → Reaches s { t with pending := t.pending ++ [c] }
  | step (t u : State) : Reaches s t → Machine.step t = .next u → Reaches s u

/-- A step that stops. -/
def Stops (s : State) : Prop := ∀ t, Machine.step s ≠ .next t

/-- The addressed memories are in canonical form: what the module has written of host memory, and its DRAM windows. -/
def Memory.wf (s : State) : Bool := twf 0 s.hif.mem && twf 0 s.mem.dram

/-- The invariant every step keeps: the addressed memories are in canonical form, the mode is one of Table: Modes, and there are two
panels and two ports. -/
def ModuleInv (s : State) : Prop :=
  Memory.wf s = true ∧ 1 ≤ s.sys.mode ∧ s.sys.mode ≤ 12 ∧ s.panels.length = 2 ∧ s.net.ports.length = 2

/-- The host's access at BAR0 `off` reaches its register: a path, and a mode that reaches the window (R324, R488, R489). -/
def State.opens (off : Nat) (s : State) : Bool := s.path && windowOpen s.sys.mode off

/-- A register write of `x` in a pair's higher-addressed half: the held first write and `x` applied together (R8, R395). -/
def Pair.applies (p : Pair) (x : Nat) : Nat := p.held.getD (p.applied % 2 ^ 32) + 2 ^ 32 * x

/-- The work of the tick with every point below `p` decided (R193). -/
def State.evaluated (p : Nat) (b : Block) (s : State) : Work := evalUpTo s.ctx b s.dec p s.workNow

/-- The work of the tick with its beginning step done, before the first point. -/
def State.begun (b : Block) (s : State) : Work := beginEval s.ctx b s.workNow

/-- The work of the tick with every point and the sessions below `k` decided. -/
def State.called (k : Nat) (b : Block) (s : State) : Work :=
  let z := finishEval s.ctx s.dec (b, s.workNow)
  callUpTo s.ctx z.1 k z.2

/-- The module takes a frame of a type and class: not over-long, kept by R296, and no duplicate of HSR, both copies of a Gust segment
being taken (R291, R293, R304). -/
def State.takes (h : Hdr) (type cls : Nat) (s : State) : Bool :=
  s.ticking && decide (h.rx ≤ 1488) && frameOk h type cls s && (decide (type = 1) || !h.hsr.any (s.repeated h))

/-- The state once a frame has come in: its source address kept for replies, and its sequence number. -/
def State.from (h : Hdr) (s : State) : State := noteFrame h (heardOn h s)

/-- The state once the next descriptor of `c`'s ring is taken: its CIDX counts on, and is written back before the tick ends (R331). -/
def State.fetched (c : Cmd) (s : State) : State :=
  let r := s.ring c.ring
  setRing c.ring { r with cidx := (r.cidx + 1) % 2 ^ 32, wbDue := true } s

/-- The ring brings `c` as a descriptor of opcode `op` that passes Table: Descriptor checks, outside RECOVERY and with no takeover
whose commands the module would recognise (R282, R328, R339, R340). -/
def Brings (op : Nat) (c : Cmd) (s : State) : Prop :=
  decodable op c s = true ∧ c.op.toNat = op ∧ c.crcOk = true ∧ s.dom.tookOver = none ∧ cmdFault c (s.fetched c) = 0 ∧ s.sys.mode ≠ 5

/-- The command starts at once on this module: addressed to it, for no later tick (R337). -/
def StartsHere (c : Cmd) (s : State) : Prop := c.dev.toNat = s.dom.dev ∧ c.apply.toNat ≤ s.tick

/-- The job of a command that starts at once, LATE when its named tick has passed (R337). -/
def jobOf (c : Cmd) (s : State) : Job :=
  { cmd := c, origin := .ring c.ring (s.ring c.ring).cidx, start := s.tick, late := c.apply ≠ 0 && c.apply.toNat < s.tick, decoded := s.tick }

/-- No channel but `k` is busy. -/
def State.onlyBusy (k : Nat) (s : State) : Prop := ∀ n, n ≠ k → (s.chan n).busy = false

/-- What the channels can change as they are granted and go on (R361, R364): themselves, the memory they write, the frames they send, and
what their commands complete with. -/
def State.dmaOnly (s t : State) : Prop :=
  t = { s with hif := t.hif, net := t.net, dom := { s.dom with cmds := t.dom.cmds, peers := t.dom.peers, doneFrames := t.dom.doneFrames }
               mem := { s.mem with chans := t.mem.chans, turn := t.mem.turn, dram := t.mem.dram, loads := t.mem.loads, fetches := t.mem.fetches } }

/-- What programming flash can change beside what it writes (R368, R376): channel 13, the count of its runs, and, for a block that fails, the
reserve and what reports it. -/
def State.programs (s t : State) : Prop :=
  t = { s with sys := t.sys, causes := t.causes, rec_ := t.rec_, free := t.free
               mem := { s.mem with chans := t.mem.chans, retired := t.mem.retired, reserve := t.mem.reserve } }

/-- The next `n` pages programmed find a good block in the reserve for each that fails (R368, R376; log entry 147). -/
def State.programsOk (s : State) (n : Nat) : Bool := decide ((Config.badPages s.free n).length ≤ s.mem.reserve.toNat)

/-- The outcome the module keeps of a ring command (R275, R341). -/
def outcome (c : Cmd) (s : State) (status used a b : Nat) (detail : Nat := 0) : JournalCmd :=
  { ring := c.ring, index := (s.ring c.ring).cidx, tag := c.tag.toNat, op := c.op.toNat, dev := c.dev.toNat, apply := c.apply.toNat,
    status := status, used := used, a := a % 2 ^ 32, b := b % 2 ^ 32, detail := detail }

/-- What the journal holds of a ring command that goes on (R275, R282), on a module that serves a domain: ABORTED until it ends. -/
def noted (c : Cmd) (s : State) : List JournalCmd :=
  let i := (s.ring c.ring).cidx
  if !s.domain || s.dom.cmds.any fun x => x.ring = c.ring && x.index = i then []
  else match s.view.scheds.find? fun y => y.ring = some (c.ring.val, i) with
    | some y => [{ outcome c s (okLate y.late) y.apply 0 0 with gust := true }]
    | none => [outcome c s 5 s.tick 0 0]

end Sys2Proof.Machine
end

