-- ==== Sys2Proof/Certificates/Slice0/Obligations.lean ====
section
/-! DEFINITION. The statements for the provers, by chapter. "Frame" in a docstring: the conclusion writes the next state as the
old one with the named fields replaced, so every other field, all of memory among them, is unchanged. -/

open Sys2Proof Sys2Proof.Machine

/-! The machine. -/

/-- A step runs the command at the front of the queue with the queue's rest. On an empty queue one period of the 32.768 kHz oscillator
passes in the backup domain where it is supplied: the model's choice, log entry 2. -/
def Obligations.StepRunsFront : Prop :=
  ∀ (s : State),
    (∀ c rest, s.pending = c :: rest → step s = exec c { s with pending := rest })
    ∧ (s.pending = [] → step s = .next (if s.sys.mode = 1 then s else { s with rtc := s.rtc.osc }))

/-- The reset state keeps the invariant, has no command waiting, and its registers read what the Reset columns of the register tables
state (R436, R491 to R498). The strap, the option block and the flash it stands for are the model's choice, log entries 3 and 4. -/
def Obligations.ResetState : Prop :=
  ModuleInv State.reset ∧ State.reset.pending = []
    ∧ (∀ x ∈ [(0x0000, 0x6410), (0x0008, 4), (0x0400, 1), (0x0810, 0xFF), (0x0C04, 0x21), (0x0C14, 0x801C1100), (0x0C2C, 0x14), (0x2810, 0x80800000),
        (0x3400, 0x000303E8), (0x3404, 0x99), (0x3800, 0x00111000)], regValue State.reset x.1 = x.2)
    ∧ ∀ o ∈ [0x000C, 0x0010, 0x0014, 0x040C, 0x0410, 0x0800, 0x0804, 0x0808, 0x080C, 0x0C00, 0x0C08, 0x0C0C, 0x0C10, 0x0C18, 0x0C1C, 0x0C20, 0x0C24,
        0x0C28, 0x2408, 0x2410, 0x2440, 0x2814, 0x2818, 0x281C, 0x2C00, 0x2C04, 0x2C1C, 0x3004, 0x3408, 0x340C, 0x3410, 0x3414, 0x380C, 0x3840],
      regValue State.reset o = 0

/-- Every step keeps the invariant: the addressed memories in canonical form, a mode of Table: Modes, two panels and two ports; and it takes
the front command off the queue and puts none there. Log entries 11 and 12 hold the readings it rests on. -/
def Obligations.StepKeepsInv : Prop :=
  ∀ (s t : State), ModuleInv s → step s = .next t → ModuleInv t ∧ t.pending = s.pending.tail

/-- The Gust payload (R41, R43) reads back what was written: decoding the encoding of a Gust whose fields lie in their widths, whose
tables are canonical and which has at most 8 inputs gives it back. -/
def Obligations.GustRoundTrip : Prop :=
  ∀ (g : Gust), g.tick < 2 ^ 48 → g.epochId < 2 ^ 64 → g.pendApply < 2 ^ 48 → g.digestRx < 2 ^ 64 → g.pendId < 2 ^ 64 →
    twf 15 g.pub = true → (∀ x ∈ g.pub, x.1 < 8192 ∧ x.2 < 16) → twf 0 g.dgrp = true → (∀ x ∈ g.dgrp, x.1 < 1024 ∧ x.2 < 4) →
    twf 0 g.sess = true → (∀ x ∈ g.sess, x.1 < 64 ∧ x.2 < 2 ^ 16) → g.inputs.length ≤ 8 →
    (∀ i ∈ g.inputs, i.opcode < 256 ∧ i.targetDev < 256 ∧ i.target < 2 ^ 16 ∧ i.locDev < 256 ∧ i.locInput < 256 ∧ i.tag < 2 ^ 16 ∧ i.arg < 2 ^ 32
      ∧ i.reqTick < 2 ^ 32) →
    decGust (encGust g) = g ∧ (encGust g).length = 4648

/-- The primitives on exact integers (R119): divr is a / b rounded to nearest with ties away from zero, shr, fdiv, and isqrt within the
128 bits an intermediate has. -/
def Obligations.Arithmetic : Prop :=
  ∀ (a b : Int) (n : Nat),
    (0 < b → divr a b = a.sign * ((2 * (a.natAbs : Int) + b) / (2 * b)) ∧ 2 * (divr a b * b - a).natAbs ≤ b.natAbs
      ∧ (2 * (divr a b * b - a).natAbs = b.natAbs → a.natAbs < (divr a b * b).natAbs)
      ∧ fdiv a b * b ≤ a ∧ a < (fdiv a b + 1) * b)
    ∧ shr a 0 = a ∧ (1 ≤ n → shr a n = divr a (2 ^ n))
    ∧ (0 ≤ a → a < 2 ^ 128 → 0 ≤ isqrt a ∧ isqrt a * isqrt a ≤ a ∧ a < (isqrt a + 1) * (isqrt a + 1))

/-! The backup domain (15). -/

/-- Writes of the counter and compare pairs, with their frame. RTC_CNT is locked while HALT is clear (R442, R448, R324). Log entry 67 holds the reading it
rests on. TRIM is stored at the nearer limit, RTC_WAKE restarts the count from the new PERIOD, RTC_PWRON takes HOLD and the enables and clears LATCH
on a 1 (R445, R450, R451), each with its frame. -/
def Obligations.RtcWrites : Prop :=
  (∀ (v : Word) (s : State),
    (s.opens 0x0C0C = true → s.rtc.halt = true →
      exec (.rtcCntWrite v) s = .next { s with rtc := { s.rtc with
        cntPair := { applied := s.rtc.cntPair.applies (v.toNat % 65536), held := none, lo := s.rtc.cntPair.lo, hi := v &&& 0xFFFF#32 }
        cnt := s.rtc.cntPair.applies (v.toNat % 65536) % 2 ^ 48, oscStop := false, gate := false
        written := decide (s.rtc.cmp.applied % 2 ^ 48 ≤ s.rtc.cntPair.applies (v.toNat % 65536) % 2 ^ 48)
        skipDue := decide (s.rtc.cmp.applied % 2 ^ 48 ≤ s.rtc.cntPair.applies (v.toNat % 65536) % 2 ^ 48) } })
    ∧ (s.opens 0x0C0C = true → s.rtc.halt = false → exec (.rtcCntWrite v) s = .next (violate 3 true false 0x0C0C s))
    ∧ (s.opens 0x0C1C = true →
      exec (.rtcCmpWrite v) s = .next { s with rtc := { s.rtc with
        cmp := { applied := s.rtc.cmp.applies (v.toNat % 65536), held := none, lo := s.rtc.cmp.lo, hi := v &&& 0xFFFF#32 }
        fired := false, skipped := false, written := false, skipDue := decide (s.rtc.cmp.applies (v.toNat % 65536) % 2 ^ 48 ≤ s.rtc.cnt) } }))
  ∧ (∀ (v : Word) (s : State),
    (s.opens 0x0C24 = true → exec (.rtcTrimWrite v) s = .next { s with rtc := { s.rtc with
        trim := max (-8192) (min 8192 (sx 15 v.toNat)), gate := false } })
    ∧ (s.opens 0x0C20 = true → exec (.rtcWakeWrite v) s = .next { s with rtc := { s.rtc with
        wakeEn := v.getLsbD 31, period := min (v.toNat % 2 ^ 24) 16588800, wakeCnt := 128 * min (v.toNat % 2 ^ 24) 16588800 } })
    ∧ (s.opens 0x0C2C = true → exec (.rtcPwronWrite v) s = .next { s with rtc := { s.rtc with
        hold := v.getLsbD 2, onWake := v.getLsbD 1, onCmp := v.getLsbD 0, latch := s.rtc.latch && !v.getLsbD 3 } }))

/-- A write of RTC_CTL (R442, R443, R448), with what it changes: the backup domain. HALT set stops the counter where it is and clears the
accumulator; the time it stands halted is lost from it; HALT cleared discards a held first write of RTC_CNT_L and the counter goes on from
the value it had. CMP_EN set with the counter at or above the compare fires it with SKIPPED. MEAS_SRC written clears VALID, and no gate runs
until the next instant of its reference: the model's reading, log entry 67. That a step of an empty queue is one oscillator period is the
model's choice, log entry 2. -/
def Obligations.RtcControl : Prop :=
  ∀ (v : Word) (s : State),
    (s.opens 0x0C00 = true → v.getLsbD 0 = true → s.rtc.halt = false → ∃ t, exec (.rtcHaltSet v) s = .next t
      ∧ t = { s with rtc := t.rtc } ∧ t.rtc.halt = true ∧ t.rtc.cnt = s.rtc.cnt ∧ t.rtc.acc = 0)
    ∧ (s.opens 0x0C00 = true → v.getLsbD 0 = false → s.rtc.halt = true → ∃ t, exec (.rtcHaltClear v) s = .next t
      ∧ t = { s with rtc := t.rtc } ∧ t.rtc.halt = false ∧ t.rtc.cnt = s.rtc.cnt ∧ t.rtc.cntPair.held = none)
    ∧ (s.rtc.halt = true → s.pending = [] → ∃ t, step s = .next t ∧ t.rtc.cnt = s.rtc.cnt)
    ∧ (s.opens 0x0C00 = true → v.getLsbD 2 = true → s.rtc.cmpEn = false → s.rtc.fired = false →
      ∃ t, exec (.rtcCmpEnSet v) s = .next t ∧ t = { s with rtc := t.rtc } ∧ t.rtc.cmpEn = true ∧ t.rtc.cnt = s.rtc.cnt
        ∧ t.rtc.fired = decide (s.rtc.cmp.applied % 2 ^ 48 ≤ s.rtc.cnt)
        ∧ (t.rtc.fired = true → t.rtc.skipped = true ∧ t.rtc.latch = (s.rtc.latch || s.rtc.onCmp)))
    ∧ (s.opens 0x0C00 = true → ∃ t, exec (.rtcMeasSrcWrite v) s = .next t ∧ t = { s with rtc := t.rtc } ∧ t.rtc.measSrc = v.toNat / 32 % 4
      ∧ t.rtc.measValid = false ∧ t.rtc.gate = false)

/-- A TRIM of t changes the counter's rate by exactly t / 16 ppm (R445): over n oscillator periods with HALT clear the counter advances k
times, and 16 000 000 times its gain on n differs from n times TRIM by what the accumulator has moved, which stays below 16 000 000. -/
def Obligations.TrimRate : Prop :=
  ∀ (n : Nat) (s : State), s.sys.mode ≠ 1 → s.rtc.halt = false → s.rtc.cnt < 2 ^ 48 → s.rtc.trim.natAbs ≤ 8192 → s.rtc.acc.natAbs < 16000000 →
    ∃ k : Nat, (Nat.repeat idle n s).rtc.cnt = (s.rtc.cnt + k) % 2 ^ 48 ∧ (Nat.repeat idle n s).rtc.acc.natAbs < 16000000
      ∧ 16000000 * ((k : Int) - n) + (Nat.repeat idle n s).rtc.acc = s.rtc.acc + n * s.rtc.trim

/-- A read of RTC_CNT_L takes the shadow and returns its low half; the read of RTC_CAL_1, and the timeout, release it (R440). The compare
and the wake, when its count stands at zero, fire and set LATCH under their enables (R448, R450); a stopped oscillator sets OSC_STOP (R439). The
compare and the wake change the backup domain alone, so they raise no event, message or interrupt, and RTC_STAT and RTC_PWRON show them (R452). A
step of an empty queue is one oscillator period by the model's choice, log entry 2: the shadow is gone after 33 of them, and a wake at 1 fires
in one. -/
def Obligations.RtcReadsAndFires : Prop :=
  ∀ (s : State),
    (s.opens 0x0C08 = true → s.rtc.cntPair.held = none → exec .rtcCntLRead s = .next { s with
        rtc := { s.rtc with shadow := some s.rtc.cnt, shadowAge := 0 }, hif := { s.hif with rd := BitVec.ofNat 32 s.rtc.cnt } })
    ∧ (s.opens 0x0C14 = true → exec .rtcCal1Read s = .next { s with
        rtc := { s.rtc with shadow := none, shadowAge := 0 }, hif := { s.hif with rd := BitVec.ofNat 32 (cal1 (s.rtc.shadow.getD s.rtc.cnt)) } })
    ∧ (32 ≤ s.rtc.shadowAge → exec .rtcShadowTimeout s = .next { s with rtc := { s.rtc with shadow := none, shadowAge := 0 } })
    ∧ (s.rtc.shadowAge < 32 → exec .rtcShadowTimeout s = .next s)
    ∧ (s.rtc.shadow ≠ none → s.rtc.shadowAge = 0 → ∀ n ≤ 33, (Nat.repeat Rtc.osc n s.rtc).shadow = if n = 33 then none else s.rtc.shadow)
    ∧ (s.sys.mode ≠ 1 → s.rtc.cmpEn = true → s.rtc.fired = false → s.rtc.cmp.applied % 2 ^ 48 ≤ s.rtc.cnt → s.rtc.written = false →
      exec .rtcCompareFire s = .next { s with rtc := { s.rtc with
        fired := true, skipped := s.rtc.skipDue, skipDue := false, latch := s.rtc.latch || s.rtc.onCmp } })
    ∧ (s.sys.mode ≠ 1 → s.rtc.wakeEn = true → s.rtc.period ≠ 0 → s.rtc.wakeCnt = 0 → exec .rtcWakeFire s = .next { s with rtc := { s.rtc with
        wake := true, latch := s.rtc.latch || s.rtc.onWake, wakeCnt := 128 * s.rtc.period } })
    ∧ (s.rtc.wakeCnt ≠ 0 → exec .rtcWakeFire s = .next s)
    ∧ (s.rtc.wakeEn = true → s.rtc.period ≠ 0 → s.rtc.wakeCnt = 1 → s.rtc.osc.wake = true ∧ s.rtc.osc.wakeCnt = 128 * s.rtc.period)
    ∧ (s.sys.mode ≠ 1 → exec .oscStop s = .next { s with rtc := { s.rtc with oscStop := true, running := false } })
    ∧ (∃ t, exec .rtcCompareFire s = .next t ∧ t = { s with rtc := t.rtc })
    ∧ (∃ t, exec .rtcWakeFire s = .next t ∧ t = { s with rtc := t.rtc })
    ∧ (s.pending = [] → ∃ t, step s = .next t ∧ t = { s with rtc := t.rtc })
    ∧ regValue s 0x0C04 / 2 % 2 = (if s.rtc.fired then 1 else 0) ∧ regValue s 0x0C04 / 8 % 2 = (if s.rtc.wake then 1 else 0)
    ∧ regValue s 0x0C2C / 8 % 2 = (if s.rtc.latch then 1 else 0)

/-- An instant of a reference that MEAS_SRC does not name is none. A gate that ends with its reference valid sets ERR from the count the trimmed counter made in it, with its SRC and VALID (R446), and moves TRIM
by −ERR under AUTO_TRIM; the next gate starts from there, and where none runs one starts at the reference's next instant (R447). The battery
check compares VBAT with 2.3 V (R436). On a worker, at its admission tick and every 3 600 000 ticks after it, a counter more than 1 s from
domain time takes domain time (R444; the phase of the 3 600 000 ticks is the model's, log entry 41). -/
def Obligations.RtcMeasure : Prop :=
  ∀ (s : State) (nc mv a : Nat) (ends : Bool) (src : Fin 4),
    (src.val ≠ s.rtc.measSrc → exec (.trimGateEnd src ends) s = .next s)
    ∧ (src.val = s.rtc.measSrc → s.gateValid = true → s.rtc.halt = false → s.rtc.gate = false →
      exec (.trimGateEnd src ends) s = .next { s with rtc := { s.rtc with gate := true, gateAt := s.rtc.cnt } })
    ∧ (s.gateValid = false → exec (.trimGateEnd src ends) s = .next s)
    ∧ (src.val = s.rtc.measSrc → s.gateValid = true → s.rtc.halt = false → s.rtc.gate = true → nc = s.rtc.gateCount → ∃ t, exec (.trimGateEnd src true) s = .next t ∧ t = { s with rtc := t.rtc }
      ∧ t.rtc.measErr = max (-32767) (min 32767 (divr (((nc : Int) - 33554432) * 16000000) 33554432))
      ∧ t.rtc.gate = true ∧ t.rtc.gateCount = 0
      ∧ t.rtc.measSrcOf = s.rtc.measSrc ∧ t.rtc.measValid = true ∧ t.rtc.cnt = s.rtc.cnt
      ∧ t.rtc.trim = if s.rtc.autoTrim then max (-8192) (min 8192 (s.rtc.trim - t.rtc.measErr)) else s.rtc.trim)
    ∧ (3 ≤ s.sys.mode → exec (.vbatLowCheck mv) s = .next { s with rtc := { s.rtc with vbatLow := decide (mv < 2300) } })
    ∧ (s.sys.role = 3 → s.time.domain = true → (if s.dom.admitted then s.dom.admittedAt else s.dom.admitTick) = some a → a ≤ s.tick + 1 →
      (s.tick - a) % 3600000 = 0 →
      32768 < ((s.rtc.cnt : Int) - domainCnt s.tick).natAbs →
      ∃ t, exec .workerRtcSync s = .next t ∧ t = { s with rtc := t.rtc } ∧ t.rtc.cnt = domainCnt s.tick)

/-! The field side (03 to 06). -/

/-- Ranging of one cell (R101, R103 to R106): up one tag, down one tag into a seam of 4 windows, or while settling without one, the seam's end, a failing
cross-check and the end of settling. Each changes that cell alone. A seam that failed its cross-check reverts the cell with RANGE_SEAM (0x83, the cell
and the tag it comes back to in DW4), whichever row finds it (R105). The eighth of eight consecutive windows whose interim values lie below 20 % of
full scale makes a move down due, and no window before it (R103): an autoranging cell out of settling and seams, above the tag it may not pass, that
agrees with its shadow counts its quiet windows. A seam lasts four windows (R104), and three failing windows in a row mark the cell, pinned or autoranging, three passing
ones clear it (R105). The weighting of a step that lasts both windows returns the step itself (R96; the discrete weights are the model's, log entry
100). -/
def Obligations.CellRanging : Prop :=
  (∀ (k : Fin 64) (loss : Bool) (s : State),
    ((rangeMode s.cfg.e k).1 = 0 → 0 < (s.field.cell k).take.tag → ∃ t, exec (.rangeUp k loss) s = .next t
      ∧ t = (if (s.field.cell k).due = 3 then raise 0x83 (k + 256 * ((s.field.cell k).tag - 1)) 0 else id)
          { s with field := { s.field with cells := t.field.cells } }
      ∧ (t.field.cell k).tag = (s.field.cell k).take.tag - 1 ∧ (t.field.cell k).dwell = 0 ∧ ∀ j ≠ k.val, t.field.cell j = s.field.cell j)
    ∧ ((s.field.cell k).due = 1 ∨ (s.field.cell k).due = 4 → ∃ t, exec (.rangeDown k) s = .next t
      ∧ t = { s with field := { s.field with cells := t.field.cells } }
      ∧ t.field.cell k = { s.field.cell k with due := 0, tag := (s.field.cell k).tag + 1, dwell := 0,
                                                seam := if (s.field.cell k).due = 1 then 4 else (s.field.cell k).seam }
      ∧ ∀ j ≠ k.val, t.field.cell j = s.field.cell j)
    ∧ ((s.field.cell k).due = 2 → ∃ t, exec (.seamEnd k) s = .next t ∧ t = { s with field := { s.field with cells := t.field.cells } }
      ∧ t.field.cell k = { s.field.cell k with due := 0, seam := 0, dwell := 0 } ∧ ∀ j ≠ k.val, t.field.cell j = s.field.cell j)
    ∧ (3 ≤ (s.field.cell k).fails → (s.field.cell k).due ≠ 3 → ∃ t, exec (.crossCheckFail k) s = .next t
      ∧ t = { s with field := { s.field with cells := t.field.cells } } ∧ t.field.cell k = { s.field.cell k with bad := true }
      ∧ ∀ j ≠ k.val, t.field.cell j = s.field.cell j)
    ∧ ((s.field.cell k).settle < s.tick → ∃ t, exec (.settlingEnd k) s = .next t
      ∧ t = { s with field := { s.field with cells := t.field.cells } } ∧ t.field.cell k = { s.field.cell k with settle := 0 }
      ∧ ∀ j ≠ k.val, t.field.cell j = s.field.cell j)
    ∧ ((s.field.cell k).due = 3 → ∃ t, exec (.seamEnd k) s = .next t ∧ exec (.crossCheckFail k) s = .next t
      ∧ t = raise 0x83 (k + 256 * ((s.field.cell k).tag - 1)) 0 { s with field := { s.field with cells := t.field.cells } }
      ∧ (t.field.cell k).tag = (s.field.cell k).tag - 1 ∧ (t.field.cell k).seam = 0 ∧ (t.field.cell k).block = some ((s.field.cell k).tag - 1)
      ∧ ∀ j ≠ k.val, t.field.cell j = s.field.cell j))
  ∧ (∀ (c : CellSt) (mode tag n k : Nat) (o : CellObs) (v : Int),
    (mode = 0 → c.settle < n → c.seam = 0 → c.dwell = 0 → c.due = 0 → c.block = none → c.tag < tag → quiet c 0 o = true → crossFails c o ≤ 2 → k ≤ 8 →
      (Nat.repeat (fun x : CellSt => x.edge mode tag n o) k c).due = (if k = 8 then 1 else 0)
      ∧ (Nat.repeat (fun x : CellSt => x.edge mode tag n o) k c).tag = c.tag)
    ∧ (mode ≠ 2 → c.seam = 4 → c.cut = false → c.due = 0 → crossFails c o ≤ 2 → 1 ≤ k → k ≤ 4 →
      (Nat.repeat (fun x : CellSt => x.edge mode tag n o) k c).seam = 4 - k ∧ ((Nat.repeat (fun x : CellSt => x.edge mode tag n o) k c).due = 2 ↔ k = 4))
    ∧ (mode ≠ 2 → c.settle < n → c.seam = 0 → c.fails = 0 → c.bad = false → 2 < crossFails c o →
      ((Nat.repeat (fun x : CellSt => x.edge mode tag n o) k c).bad = true ↔ 3 ≤ k))
    ∧ (mode ≠ 2 → c.settle < n → c.seam = 0 → c.passes = 0 → c.bad = true → crossFails c o ≤ 2 →
      ((Nat.repeat (fun x : CellSt => x.edge mode tag n o) k c).bad = false ↔ 3 ≤ k))
    ∧ triSum (convRise 0 0 [(convs, v)]) 0 [(convs, v)] = triWeight * v)

/-- A loop-supply switch counts the consecutive ticks in current limit; at 100 it opens with LSW_LIMIT (0x84, the switch in DW4), for 900
ticks (R133). A demagnetisation measurement of a switch-off at 20 mA or more is kept in units of 10 µs, with L = τ × V_LP / I_on, and t_d alone
below 50 µs (R175); demagTau's rounding is the model's choice, log entry 109. -/
def Obligations.LoopSwitch : Prop :=
  ∀ (n : Fin 32) (s : State) (x td ion vlp : Nat) (l : Lsw) (on limit up : Bool),
    (s.lswPin n = true → (tget {} s.field.lsw n).openAt = none → 100 ≤ (tget {} s.field.lsw n).run →
      ∃ t, exec (.lswLimit n) s = .next t ∧ (tget {} t.field.lsw n).openAt = some (s.tick - ((tget {} s.field.lsw n).run - 100))
        ∧ t = raise 0x84 n 0 { s with field := { s.field with lsw := t.field.lsw } } ∧ ∀ j ≠ n.val, tget {} t.field.lsw j = tget {} s.field.lsw j)
    ∧ ((tget {} s.field.lsw n).run < 100 → exec (.lswLimit n) s = .next s)
    ∧ ((tget {} s.field.lsw n).openAt = some x → x + 900 ≤ s.tick →
      ∃ t, exec (.lswReclose n) s = .next t ∧ (tget {} t.field.lsw n).openAt = none
        ∧ t = { s with field := { s.field with lsw := t.field.lsw } } ∧ ∀ j ≠ n.val, tget {} t.field.lsw j = tget {} s.field.lsw j)
    ∧ ((tget {} s.field.lsw n).openAt = some x → s.tick < x + 900 → exec (.lswReclose n) s = .next s)
    ∧ (l.openAt = none → (l.window on limit x).openAt = none ∧ (l.window on limit x).run = if on && limit then l.run + 1 else 0)
    ∧ (20 ≤ ion → ∃ t, exec (.demagMeasure n td ion vlp up) s = .next t
      ∧ t = { s with field := { s.field with demag := t.field.demag } }
      ∧ tget (0, 0, 0) t.field.demag n = (if td < 50 then (td / 10, 0, 0) else (td / 10, demagTau td vlp up / 10, demagTau td vlp up * vlp / ion / 1000))
      ∧ ∀ j ≠ n.val, tget (0, 0, 0) t.field.demag j = tget (0, 0, 0) s.field.demag j)

/-- The protections switch an output or a lamp off, and re-drive it at the first edge 1 000 ticks later (R172, R426): a channel above its limit
for 2 ms or too hot goes off itself; in a bank above 2.0 A for 2 ms channels go off in descending number until the rest carries no more
than 2.0 A. Channels and lamps they do not name keep theirs. -/
def Obligations.Protections : Prop :=
  ∀ (s : State) (x : Overload) (c : Fin 32) (l : Fin 16) (us ua mv : Nat) (b : Fin 4) (ma : List Nat),
    (∃ t, exec (.dioProtectionOff x) s = .next t ∧ t = { s with field := { s.field with dioOff := t.field.dioOff } }
      ∧ ∀ j : Fin 32, tget 0 t.field.dioOff j = if j.val ∈ x.sheds s.dioOn ∧ s.dioOn j = true then s.tick + 1 else tget 0 s.field.dioOff j)
    ∧ (c.val ∈ (Overload.limit c us).sheds s.dioOn ↔ 2000 ≤ us) ∧ c.val ∈ (Overload.thermal c).sheds s.dioOn
    ∧ (2000 ≤ us → ((Overload.bank b us ma).sheds s.dioOn).Pairwise (· > ·)
      ∧ (∀ i ∈ (Overload.bank b us ma).sheds s.dioOn, s.dioOn i = true ∧ 8 * b ≤ i ∧ i < 8 * b + 8)
      ∧ ((∀ i < 8, s.dioOn (8 * b + i) = true → 8 * b + i ∈ (Overload.bank b us ma).sheds s.dioOn)
        ∨ (ma.take 8).sum ≤ 2000 + (((Overload.bank b us ma).sheds s.dioOn).map fun i => ma.getD (i - 8 * b) 0).sum))
    ∧ (tget 0 s.field.dioOff c + 1000 ≤ s.tick → ∃ t, exec (.dioRedrive c) s = .next t
      ∧ t = { s with field := { s.field with dioOff := t.field.dioOff } }
      ∧ ∀ j, tget 0 t.field.dioOff j = if j = c.val then 0 else tget 0 s.field.dioOff j)
    ∧ (150000000 < ua * mv → 2000 ≤ us → ∃ t, exec (.lampProtectionOff { lamp := l, ua := ua, mv := mv, us := us }) s = .next t ∧ t = { s with field := { s.field with lampOff := t.field.lampOff } }
      ∧ ∀ j, tget 0 t.field.lampOff j = if j = l.val then s.tick + 1 else tget 0 s.field.lampOff j)
    ∧ (tget 0 s.field.lampOff l + 1000 ≤ s.tick → ∃ t, exec (.lampRedrive l) s = .next t
      ∧ t = { s with field := { s.field with lampOff := t.field.lampOff } }
      ∧ ∀ j, tget 0 t.field.lampOff j = if j = l.val then 0 else tget 0 s.field.lampOff j)

/-- Loss of the barrier link: the field side takes its own safe states, loop outputs OFF or at their failure current and
outputs off but those that hold (R13); where the last window found its converter out of regulation it resets, and every output is off (R185). The counts of the loop outputs switched off start afresh
with the next tick decided (R147). Its return needs 16 strobes and a complete set of staged settings, in the Lull (R17). Log entry 92 holds the
reading it rests on. -/
def Obligations.BarrierLink : Prop :=
  ∀ (s : State),
    (s.field.powered = true → s.field.regulated = false ∨ s.field.dead = false → ∃ t, exec .barrierLinkLoss s = .next t
      ∧ t = { s with field := t.field, rec_ := { s.rec_ with linkLost := t.rec_.linkLost } }
      ∧ t.field.dead = true ∧ t.field.strobes = 0 ∧ t.field.stagedFull = false
      ∧ (∃ x ∈ t.rec_.linkLost, (x.1 = s.tick ∨ x.1 = s.tick + 1) ∧ ∀ i : Fin 8, i.val ∈ x.2 ↔ t.field.applied.louts.getD i .off = .off)
      ∧ (∀ i : Fin 8, t.field.applied.louts.getD i .off = if s.field.regulated then linkLossLout (s.cfg.e.lout i) else .off)
      ∧ ∀ c : Fin 32, t.field.applied.dio.getD c .off = if s.field.regulated = true ∧ (s.cfg.e.chan c).dir = 2 then dioPowerOff s.cfg.e s.dec c else .off)
    ∧ (s.field.dead = true → 16 ≤ s.field.strobes → s.field.stagedFull = true → 3 ≤ s.time.phase → ∃ t, exec .barrierLinkRestore s = .next t
      ∧ t = { s with field := { s.field with dead := false, cells := t.field.cells } })
    ∧ (s.field.dead = true → (s.field.strobes < 16 ∨ s.field.stagedFull = false ∨ s.time.phase < 3) → exec .barrierLinkRestore s = .next s)
    ∧ ((∀ x, s.field.lastLost = some x → x + 10000 ≤ s.tick) → ∃ t, exec .barrierLinkStable s = .next t
      ∧ t.causes = s.causes.filter (· ≠ (3, 0)) ∧ t = { s with causes := t.causes, sys := t.sys, rec_ := t.rec_ })

/-! Points and calls (07, 08). -/

/-- The evaluation of one point in one tick (R194 to R204): out of service it is not evaluated; its next STATE is the first of Table: State
derivation, and an event is raised exactly when STATE changes; with no inhibit a held source leaves A, F and TIMER, a fault sets F with its
cause and clears TIMER while A stays, and a valid value runs the delay timer. A RATE point judges the rate at the ticks its window divides, from
the reference of the window before, when that is valid; a held source and a fault leave it none (R190). From rest, A is set by the tick that is ON_DELAY ticks after the
first of consecutive ticks with C, and by none before (R198). -/
def Obligations.PointStep : Prop :=
  ∀ (c : PointCfg) (n p src : Nat) (rd : Reading) (ref rate : Int) (sh cr : Bool) (o t : PointState) (ev : Option Ev) (k : Nat),
    (rate = divr ((rd.eng - o.rateRef) * 1000) c.param → pointEval c n p src rd ref sh o = (t, ev) →
      (o.state = 6 → t = { o with held := false } ∧ ev = none)
      ∧ (o.state ≠ 6 →
        t.state = (if 0 < t.shelveRem then 5 else if t.f = true ∧ ¬ (t.supp = true ∧ c.inhFault = true) then (if t.u then 7 else 8)
          else if t.supp then 4 else if t.a then (if t.u then 1 else 2) else if t.u then 3 else 0)
        ∧ (ev = none ↔ t.state = o.state) ∧ (∀ v, ev = some v → v.point = p ∧ v.old = o.state ∧ v.new = t.state ∧ v.tick = n)
        ∧ (inhDemand c src = false → o.supp = false →
          (rd.held = true → t.a = o.a ∧ t.f = o.f ∧ t.timer = o.timer ∧ t.lastEng = o.lastEng ∧ t.rrefValid = false)
          ∧ (∀ cause, rd.held = false → rd.fault = some cause → t.f = true ∧ t.fcause = cause ∧ t.a = o.a ∧ t.timer = 0 ∧ t.rrefValid = false)
          ∧ (rd.held = false → rd.fault = none → t.f = false ∧ t.fcause = 0 ∧ t.lastEng = rd.eng ∧ t.noValue = false)
          ∧ (rd.held = false → rd.fault = none → c.cond = 6 →
            (n % c.param ≠ 0 → t.rc = o.rc ∧ t.rr = o.rr ∧ t.rateRef = o.rateRef ∧ t.rrefValid = o.rrefValid)
            ∧ (n % c.param = 0 → t.rateRef = rd.eng ∧ t.rrefValid = true ∧ (o.rrefValid = false → t.rc = o.rc ∧ t.rr = o.rr)
              ∧ (o.rrefValid = true → t.rc = decide (c.limHi < rate ∨ rate < c.limLo)
                ∧ t.rr = decide (c.limLo + c.deadband ≤ rate ∧ rate ≤ c.limHi - c.deadband)))
            ∧ (t.a, t.timer) = if o.a then (if t.rr then (if o.timer = c.offDelay then (false, 0) else (true, o.timer + 1)) else (true, 0))
              else (if t.rc then (if o.timer = c.onDelay then (true, 0) else (false, o.timer + 1)) else (false, 0)))
          ∧ (rd.held = false → rd.fault = none → c.cond ≠ 6 → (t.a, t.timer) = if o.a then (if condR c o rd.x rd.eng ref then (if o.timer = c.offDelay then (false, 0) else (true, o.timer + 1)) else (true, 0))
              else (if condC c o rd.x rd.eng ref then (if o.timer = c.onDelay then (true, 0) else (false, o.timer + 1)) else (false, 0))))))
    ∧ (o.a = false → o.timer = 0 → k ≤ c.onDelay + 1 → (Nat.repeat (timerStep c true cr) k o).a = decide (k = c.onDelay + 1))

/-- The state of a group from its members' states and PRIO (R213): UNACK, ACTIVE and the highest PRIO among members in states 1, 2, 3, 7
and 8; a quiet group holds nothing; and the results of the Gust that the serving module makes are bits [1:0] of the domain groups' states. -/
def Obligations.GroupStates : Prop :=
  ∀ (ms keys : List (Nat × Nat)) (g : GroupState) (s : State) (i : Nat),
    ((∀ m ∈ ms, m.2 < 4) → groupCode ms < 16)
    ∧ (groupCode ms % 2 = 1 ↔ ∃ m ∈ ms, m.1 = 1 ∨ m.1 = 3 ∨ m.1 = 7)
    ∧ (groupCode ms / 2 % 2 = 1 ↔ ∃ m ∈ ms, m.1 = 1 ∨ m.1 = 2 ∨ m.1 = 7 ∨ m.1 = 8)
    ∧ (∀ m ∈ ms, (m.1 = 1 ∨ m.1 = 2 ∨ m.1 = 3 ∨ m.1 = 7 ∨ m.1 = 8) → m.2 ≤ groupCode ms / 4)
    ∧ (groupCode ms / 4 = 0 ∨ ∃ m ∈ ms, (m.1 = 1 ∨ m.1 = 2 ∨ m.1 = 3 ∨ m.1 = 7 ∨ m.1 = 8) ∧ m.2 = groupCode ms / 4)
    ∧ (evalGroup ms keys g).state = groupCode ms ∧ (groupCode ms = 0 → evalGroup ms keys g = {})
    ∧ (s.decides = true → s.servingAt s.tick = true → s.dec.lastTick = some s.tick → twf {} s.dec.dgroups = true →
      tget 0 (gustResults s).1 i = (tget {} s.dec.dgroups i).state % 4)

/-- Happenings within EVALUATE. Rows of the gates and of low loop voltage that fall due are taken before the first point (R146, R167).
Happenings at a point come about when the point before and after shows them: A rising after its on-delay, A falling after its off-delay,
the end of an inhibit and of a shelf, and a RATE window's end (R190, R198 to R201). Only the tick's work changes. -/
def Obligations.EvaluateRows : Prop :=
  ∀ (s : State) (b : Block), s.rec_.block = some b → s.deciding = true → s.time.phase = 0 →
    (∀ n : Fin 8, (n.val ∉ (s.begun b).preps → gateDue (s.cfg.e.chan n) b.tick = true →
      exec (.freqGateEnd n) s = .next { s with work := some (prepStep s.cfg.e b (s.begun b) n) })
    ∧ ∀ k, 8 + n.val ∉ (s.begun b).preps → loutDue (loutCount (b.loutOf n) (tget {} (s.begun b).d.louts n)) = some k →
      (k = 1 → exec (.loopVoltage n) s = .next { s with work := some (prepStep s.cfg.e b (s.begun b) (8 + n)) })
      ∧ (k = 2 → exec (.loutOffProt n) s = .next { s with work := some (prepStep s.cfg.e b (s.begun b) (8 + n)) })
      ∧ (k = 3 → exec (.loutRetry n) s = .next { s with work := some (prepStep s.cfg.e b (s.begun b) (8 + n)) })
      ∧ (k = 4 → exec (.loutResume n) s = .next { s with work := some (prepStep s.cfg.e b (s.begun b) (8 + n)) }))
    ∧ ∀ (p : Fin 1024) (w w' : Work) (o n : PointState),
      w = s.evaluated p b → w' = evalUpTo s.ctx b s.dec (p + 1) w → w.cursor = p → o = w.d.pt p → n = w'.d.pt p →
    (o.a = false → n.a = true → exec (.onDelayExpiry p) s = .next { s with work := some w' })
    ∧ (o.a = true → n.a = false → n.supp = false → exec (.offDelayExpiry p) s = .next { s with work := some w' })
    ∧ (o.supp = true → n.supp = false → exec (.inhibitRelease p) s = .next { s with work := some w' })
    ∧ (o.shelveRem ≠ 0 → n.shelveRem = 0 → exec (.shelveExpired p) s = .next { s with work := some w' })
    ∧ ((s.cfg.e.pt p).srcKind ≠ 0 → (s.cfg.e.pt p).cond = 6 → b.tick % (s.cfg.e.pt p).param = 0 →
      exec (.rateWindowEnd p) s = .next { s with work := some w' })

/-- Squall decides a session (R236 to R239): a call stands after a tick in which some binding of the session demands it; a call ends only
when its demand has gone and no watchkeeper call stands, and then it does end; silences, duty changes and epoch rules of other sessions end
none; and a demand with no call standing starts one at tier 1, unless a watchkeeper call starts in the same tick. Only that session changes. -/
def Obligations.SquallCalls : Prop :=
  ∀ (e : Epoch) (n : Nat) (w w' : Work) (i : Nat) (q r : SessState) (hot : Prop), (e.sess i).enable = true → w' = evalSession e n w i →
    q = tget {} w.d.sessions i → r = tget {} w'.d.sessions i → (hot ↔ ∃ b ∈ e.call.binds, b.session = i ∧ bindDemands w.d b = true) →
    (hot → 1 ≤ r.tier) ∧ (1 ≤ q.tier → r.tier = 0 → ¬ hot ∧ r.wk ≠ 3) ∧ (1 ≤ q.tier → ¬ hot → r.wk ≠ 3 → r.tier = 0)
    ∧ (q.tier = 0 → hot → r.wk = q.wk → r.tier = 1)
    ∧ (∀ sv g, (applySilence e sv g w).d.sessions = w.d.sessions ∧ (applyDuty e sv g w).d.sessions = w.d.sessions)
    ∧ (∀ old j, j ≠ i → tget {} (epochSession old e w j).d.sessions i = q)
    ∧ (∀ j, j ≠ i → tget {} w'.d.sessions j = tget {} w.d.sessions j) ∧ w'.d.points = w.d.points ∧ w'.d.dgroups = w.d.dgroups

/-- Escalation and the two watch-keeper calls come about in PUBLISH when their session's step raises their event (R238, R246). A key press and a
selector act within EVALUATE on the tick's work and record, once its beginning step is done (R250, R251); a key whose input is not pressed
does no more than begin the tick's work. -/
def Obligations.SessionAndKeyRows : Prop :=
  ∀ (s : State) (b : Block), s.rec_.block = some b → s.deciding = true →
    (∀ (i : Fin 64) (cause : Nat) (c : Instr), s.time.phase = 1 → s.dom.serving = true →
      (c, cause) ∈ [(Instr.escalate i, 0x51), (Instr.wkPrewarn i, 0x58), (Instr.wkCall i, 0x59)] →
      (finishEval s.ctx s.dec (b, s.workNow)).2.callCursor ≤ i →
      (∃ v ∈ (callUpTo s.ctx (finishEval s.ctx s.dec (b, s.workNow)).1 (i + 1) (s.called i b)).evs,
        v.kind = 3 ∧ v.point = i ∧ v.cause = cause) →
      ∃ t, exec c s = .next t ∧ t = { s with work := t.work, rec_ := t.rec_ } ∧ ∃ w, t.work = some w
        ∧ ∃ v ∈ w.evs, v.kind = 3 ∧ v.point = i ∧ v.cause = cause)
    ∧ (∀ c : Fin 32, s.time.phase = 0 →
      (pressed b s.dec c = true → exec (.keyPress c) s = .next { s with
        work := some (keyStep s.ctx s.dec (b, s.begun b) c).2
        rec_ := { s.rec_ with block := some (keyStep s.ctx s.dec (b, s.begun b) c).1 } })
      ∧ (pressed b s.dec c = false → exec (.keyPress c) s = .next { s with work := some (s.begun b) }))
    ∧ ∀ i : Fin 64, s.time.phase = 0 → exec (.selectorSettle i) s = .next { s with
        work := some (selStep s.ctx (b, s.begun b) i).2, rec_ := { s.rec_ with block := some (selStep s.ctx (b, s.begun b) i).1 } }

/-! The engines (09). -/

/-- A takeover in a mode that decides (R35, R256, R259): with the other engine eligible the old duty engine goes to self-test, the
other takes duty in CATCH-UP, the fault tick is kept with what of it is complete (R265), the count rises, and the block in progress is marked.
With none eligible it is a SECOND_FAULT and SAFE-HOLD, with the loop counts restarted and every output staged at its SAFE state (R147, R149).
Log entry 8 holds the reading it rests on. -/
def Obligations.Takeover : Prop :=
  ∀ (s : State) (c : Instr), s.decides = true → s.eng.duty = 1 → s.eng.audit = none → s.eng.repeatDue = none →
    (c = .rowanTakeover 0 ∨ c = .rowanTakeover 1 ∨ c = .rowanTakeover 2 ∨ c = .rowanTakeover 3
      ∨ (c = .tickOverrun ∧ s.time.phase < 3 ∧ s.rec_.block.isSome = true)) →
    (eligible s.eng.other = true → ∃ t, exec c s = .next t ∧ t.eng.of s.eng.dutyB = 4 ∧ t.eng.duty = 2 ∧ t.eng.dutyB = !s.eng.dutyB
      ∧ t.eng.fault = some s.tick ∧ t.eng.kept = keptOf s ∧ t.eng.takeovers = (s.eng.takeovers + 1) % 256 ∧ t.work = none ∧ t.dec = s.dec
      ∧ (5, b2n s.eng.dutyB) ∈ t.causes ∧ t.hif = s.hif ∧ t.mem = s.mem ∧ t.field = s.field ∧ t.rtc = s.rtc)
    ∧ (eligible s.eng.other = false → ∃ t, exec c s = .next t ∧ t.sys.mode = 12 ∧ t.eng = s.eng.setDuty 4 ∧ t.work = none
      ∧ t.dec = { s.dec.restartLouts with moOwn := s.dec.moOwn && decide (s.sys.mode ≠ 11) } ∧ t.hif = s.hif ∧ t.mem = s.mem ∧ t.rtc = s.rtc ∧ t.field.applied = s.field.applied
      ∧ t.field.staged = if s.sys.powerFail.isSome then s.field.staged else safeOutputs s.cfg.e ((s.tick + 1) % 2 ^ 48) s.dec.restartLouts)

/-- Catch-up (R261, R262): from the newest valid checkpoint before the fault tick the recorded blocks are decided again, and the points stand as
that replay leaves them; the fault is behind the engine, on duty at once when the tick in progress is still to be decided in its window,
else from the next edge. A block or an image that the span needs and the module has not, or no checkpoint, is a SECOND_FAULT (R256;
the missing image is the model's choice, log entry 118). -/
def Obligations.CatchUp : Prop :=
  ∀ (s : State) (f upto : Nat) (bs : List Block), s.decides = true → s.eng.duty = 2 → s.eng.fault = some f → s.time.phase < 4 →
    upto = (if s.time.phase < 2 then s.tick - 1 else s.tick) →
    (∀ k r, s.rec_.ckpts.find? (fun c => c.ok && c.tick < f) = some k → bs = s.rec_.all.filter (fun b => k.tick < b.tick && b.tick ≤ upto) →
      ((s.rec_.lost.any fun t => k.tick < t && t ≤ upto) || bs.any fun b => (s.cfg.image b.epochId).isNone) = false →
      r = bs.foldl (replayTick s) { d := k.d, prev := s.cfg.image k.lastId } → s.time.phase < 3 →
      ∃ t, exec .catchupComplete s = .next t ∧ t.eng.duty = (if s.time.phase < 2 then 1 else 2) ∧ t.eng.fault = none ∧ t.eng.dutyB = s.eng.dutyB
        ∧ t.dec.points = r.d.points ∧ t.dec.mgroups = r.d.mgroups ∧ t.dec.sessions = r.d.sessions ∧ t.dec.louts = r.d.louts ∧ t.work = none
        ∧ t.field.staged = r.staged.getD s.field.staged ∧ (r.differs.isSome = true → (9, 0) ∈ t.causes))
    ∧ (∀ k, s.rec_.ckpts.find? (fun c => c.ok && c.tick < f) = some k → bs = s.rec_.all.filter (fun b => k.tick < b.tick && b.tick ≤ upto) →
      ((s.rec_.lost.any fun t => k.tick < t && t ≤ upto) || bs.any fun b => (s.cfg.image b.epochId).isNone) = true →
      exec .catchupComplete s = .next (secondFault 3 f s))
    ∧ ((s.rec_.ckpts.find? fun c => c.ok && c.tick < f) = none → exec .catchupComplete s = .next (secondFault 4 f s))
    ∧ ∀ k n, (secondFault k n s).sys.mode = 12

/-- The halted engine's way back (R268): the self-test ends once the engine's block reset has; one that fails leaves it FAILED with ENGINE_FAILED (0x8B); one that passes goes to
RESYNC, for the first checkpoint written after it, or into the repeat of an audit that waits for it (R272); RESYNC ends COLD when the replay between
two checkpoints 16 ticks apart agrees, and ends the causes of the engine, and FAILED when not. The pair of checkpoints is the model's choice,
log entry 120. -/
def Obligations.EngineReturn : Prop :=
  ∀ (s : State) (b sound : Bool) (a : Audit) (k : Ckpt) (agrees : Bool),
    (s.inReset (1 + b2n b) = true → ∀ pass, exec (.engineSelftestDone b pass) s = .next s)
    ∧ (s.eng.of b = 4 → s.inReset (1 + b2n b) = false → ∃ t, exec (.engineSelftestDone b false) s = .next t ∧ t.eng.of b = 6 ∧ t.eng.of (!b) = s.eng.of (!b)
      ∧ (6, b2n b) ∈ t.causes ∧ (s.eng.repeatDue = none → t = { s with eng := t.eng, causes := t.causes, sys := t.sys, rec_ := t.rec_ }))
    ∧ (s.eng.of b = 4 → s.inReset (1 + b2n b) = false → s.eng.repeatDue = none → ∃ t, exec (.engineSelftestDone b true) s = .next t ∧ t.eng.of b = 5
      ∧ t.eng.of (!b) = s.eng.of (!b) ∧ tget 0 t.eng.resync (b2n b) = (s.rec_.ckpts.head?.map fun c => c.tick + 1).getD 0 ∧ t = { s with eng := t.eng })
    ∧ (s.eng.of b = 4 → s.inReset (1 + b2n b) = false → s.eng.repeatDue = some a → a.b = b → ∃ t, exec (.engineSelftestDone b true) s = .next t ∧ t.eng.of b = 3
      ∧ t.eng.of (!b) = s.eng.of (!b) ∧ t.eng.audit = some { a with repeated := true } ∧ t.eng.repeatDue = none ∧ t = { s with eng := t.eng })
    ∧ (s.eng.of b = 5 → resyncPair s b = some k → 3 ≤ s.time.phase → s.tick ≤ k.tick + 19 →
      agrees = (sound && decide (compareSpan s false k (k.tick + 16) none = some none)) → ∃ t, exec (.engineResync b sound) s = .next t
      ∧ t.eng.of b = (if agrees then 0 else 6) ∧ t.eng.of (!b) = s.eng.of (!b)
      ∧ (agrees = true → (5, b2n b) ∉ t.causes ∧ (6, b2n b) ∉ t.causes) ∧ (agrees = false → (6, b2n b) ∈ t.causes)
      ∧ t = { s with eng := t.eng, causes := t.causes, sys := t.sys, rec_ := t.rec_ })
    ∧ (resyncPair s b = none → exec (.engineResync b sound) s = .next s)
    ∧ (resyncPair s b = some k → k ∈ s.rec_.ckpts ∧ tget 0 s.eng.resync (b2n b) ≤ k.tick ∧ k.ok = true ∧ ∃ x ∈ s.rec_.ckpts, x.ok = true ∧ x.tick = k.tick + 16)

/-- An audit starts on the cold engine in the Lull of its tick, from the newest valid checkpoint (R270). Its replay from the checkpoint 992
ticks back, 1 008 in the repeat, decides it: it passes when every tick agrees, which ends the mismatch of a repeat and the dispute of an engine that BLOCK_RESET named (R483); a first
difference halts the engine with its block reset and marks it for its repeat with the tick;
the same difference in the repeat is a dispute and another leaves the engine FAILED (R272); a replay that cannot be made abandons it (R273).
The first difference lies within the span, and an engine that computes a tick of it wrongly does not pass. Log entry 121
holds the reading of the compared checkpoints. -/
def Obligations.AuditRows : Prop :=
  ∀ (s : State) (k : Ckpt) (a : Audit) (d n : Nat) (u : Option Nat) (evs : Bool),
    (8 ≤ s.sys.mode → s.sys.mode ≤ 11 → 3 ≤ s.time.phase → s.cfg.has = true → s.eng.other = 0 → s.eng.audit = none →
      s.tick % s.cfg.e.red.auditPeriod = s.cfg.e.red.auditPhase → s.rec_.ckpts.find? (·.ok) = some k → s.rec_.lost = [] →
      (s.rec_.blocks.any fun b => b.test && k.tick < b.tick + 992 && b.tick ≤ k.tick) = false →
      (s.rec_.ckpts.any fun x => x.ok && x.tick + 992 = k.tick) = true →
      ∃ t, exec .auditStart s = .next t ∧ t.eng.other = 3 ∧ t.eng.duty = s.eng.duty ∧ t.eng.audit = some { b := !s.eng.dutyB, k := k.tick }
        ∧ t = { s with eng := t.eng })
    ∧ (s.eng.audit = some a → a.job = none → (s.rec_.ckpts.find? fun c => c.ok && c.tick + a.span = a.k) = some k →
      (compareSpan s true k a.k u = some none → ∃ t, exec (.auditEnd u) s = .next t ∧ t.eng.of a.b = 0 ∧ t.eng.audit = none
        ∧ (a.repeated = true → (7, b2n a.b) ∉ t.causes) ∧ (s.eng.named.getD (b2n a.b) false = true → (8, b2n a.b) ∉ t.causes)
        ∧ (a.repeated = false → (7, b2n a.b) ∈ s.causes → (7, b2n a.b) ∈ t.causes)
        ∧ t = { s with eng := t.eng, causes := t.causes, sys := t.sys, rec_ := t.rec_, cfg := { s.cfg with past := t.cfg.past } })
      ∧ (compareSpan s true k a.k u = some (some d) → ∃ t, exec (.auditEnd u) s = .next t ∧ t.eng.audit = none
        ∧ t = { s with eng := t.eng, causes := t.causes, sys := t.sys, rec_ := t.rec_, cfg := { s.cfg with past := t.cfg.past } }
        ∧ (a.repeated = false → t.eng.of a.b = 4 ∧ t.eng.repeatDue = some { a with firstAt := some d } ∧ (7, b2n a.b) ∈ t.causes
          ∧ (s.sys.blkState = 0 → t.sys.blkCode = 1 + b2n a.b ∧ t.sys.blkState = 1))
        ∧ (a.repeated = true → a.firstAt = some d → t.eng.of a.b = 7 ∧ (8, b2n a.b) ∈ t.causes)
        ∧ (a.repeated = true → a.firstAt ≠ some d → t.eng.of a.b = 6 ∧ (6, b2n a.b) ∈ t.causes))
      ∧ (compareSpan s true k a.k u = none → exec (.auditEnd u) s = .next (abandonAudit s)))
    ∧ (compareSpan s evs k n u = some (some d) → k.tick < d ∧ d ≤ n)
    ∧ (k.tick < d → d ≤ n → (∃ b ∈ s.rec_.all, b.tick = d) → compareSpan s evs k n (some d) ≠ some none)

/-! Stored data (12). -/

/-- A block that the code corrects is counted up to saturation with its flag and keeps its errors until the scrubber comes by; a scrub pass
comes when its time has run since the last and is counted, the SRAM's in a Lull. It counts what it corrects, leaves no block of SRAM or DRAM with an
error, and moves each flash block of 2 bytes or more; an uncorrectable block of the record is reported with its store
and address and lost, and a block that reads back is neither (R287, R376 to R378). A flash page that fails to program retires its block, and the
fall of the reserve below 16 is reported (R368). What a block reads as is the model's choice, log entries 132 and 147. -/
def Obligations.StoreErrors : Prop :=
  ∀ (s : State) (x : Store) (r : List Nat) (n : Nat) (t0 : Nat) (b : BadBlock) (i : Fin 3) (found : List (Store × BadBlock)),
    (4 ≤ s.sys.mode → readBlock false b.block = some (r, n) → exec (.eccCorrected x b) s = .next (if n = 0 then s else { s with mem := { s.mem with
      eccCor := true, corrCnt := min (s.mem.corrCnt + 1) 0xFFFFFFFF
      worn := (x, b.addr.toNat, n) :: s.mem.worn.filter fun w => !(w.1 = x && w.2.1 = b.addr.toNat) } }))
    ∧ (readBlock false b.block = none → exec (.eccCorrected x b) s = .next s)
    ∧ (4 ≤ s.sys.mode → s.sys.mode ≤ 12 → (∀ y ∈ s.mem.scrubAt, y.1 = i.val → y.2 + scrubEvery i ≤ s.tick) → (i = 0 → s.ticking = true ∧ 3 ≤ s.time.phase) →
      ∃ t, exec (.scrubPass { which := i, found := found }) s = .next t ∧ (i.val, s.tick) ∈ t.mem.scrubAt
        ∧ t.mem.dramPasses = (if i = 1 then s.mem.dramPasses + 1 else s.mem.dramPasses)
        ∧ t.mem.flashPasses = (if i = 2 then s.mem.flashPasses + 1 else s.mem.flashPasses)
        ∧ t.mem.corrCnt = min (s.mem.corrCnt + (scrubbed i found s.mem.worn).length) 0xFFFFFFFF
        ∧ (∀ w ∈ t.mem.worn, w.1.memory = i.val → i = 2 ∧ w.2.2 < 2) ∧ (∀ w ∈ s.mem.worn, w.1.memory ≠ i.val → w ∈ t.mem.worn)
        ∧ t.mem.moves = s.mem.moves + (if i = 2 then ((scrubbed i found s.mem.worn).filter fun w => 2 ≤ w.2.2).length else 0)
        ∧ t.mem.store = s.mem.store ∧ t.mem.dram = s.mem.dram ∧ t.rtc = s.rtc ∧ t.field = s.field ∧ t.hif = s.hif ∧ t.dec = s.dec
        ∧ (i ≠ 2 → t = { s with mem := t.mem }))
    ∧ (s.mem.scrubAt = [(i.val, t0)] → t0 ≤ s.tick → s.tick < t0 + scrubEvery i → exec (.scrubPass { which := i, found := found }) s = .next s)
    ∧ (scrubEvery 0 = 256 ∧ scrubEvery 1 = 24 * 3600 * 1000 ∧ scrubEvery 2 = 7 * 24 * 3600 * 1000)
    ∧ ((retireBlock n s).mem.retired = s.mem.retired + 1 ∧ (retireBlock n s).mem.reserve.toNat = s.mem.reserve.toNat - 1
      ∧ (s.mem.reserve.toNat = 16 → (15, 0) ∈ (retireBlock n s).causes))
    ∧ (4 ≤ s.sys.mode → s.sys.mode ≤ 12 → s.eng.audit = none → readBlock false b.block = none →
      ∃ t, exec (.uncorrectableError (.record t0) b) s = .next t
      ∧ t = { s with mem := { s.mem with eccUnc := true, lastStore := (Store.record t0).code, eccAddr := b.addr
                                         uncorrCnt := min (s.mem.uncorrCnt + 1) 0xFFFFFFFF }, rec_ := t.rec_ }
      ∧ t.rec_.lost = t0 :: s.rec_.lost)
    ∧ (readBlock false b.block = some (r, n) → exec (.uncorrectableError (.record t0) b) s = .next s)

/-- The guard code (R375, R376): the check bytes of any 32 data bytes make a codeword; a codeword reads as it is in both modes; what a normal read answers
is a codeword that differs from the block in at most the bytes it says, at most 4; and detect-only mode corrects nothing. Records of the backup domain
(R21, R416, R418): a panel's journal record is 64 bytes with its CRC in the last two and reads back as it was written; one whose CRC fails is absent;
and a reset cause reads as kept under its CRC. Log entry 133 holds what a damaged reset cause reads as. -/
def Obligations.GuardedStores : Prop :=
  (∀ (d w v : List Nat) (k : Nat), (∀ x ∈ d, x < 256) → d.length = 32 →
    isCodeword (rsBlock d) = true ∧ (rsBlock d).length = 40 ∧ (∀ x ∈ rsBlock d, x < 256) ∧ (rsBlock d).take 32 = d
    ∧ rsRead (rsBlock d) = some (rsBlock d, 0) ∧ rsDetect (rsBlock d) = some (rsBlock d, 0)
    ∧ (w.length = 40 → rsRead w = some (v, k) → isCodeword v = true ∧ k ≤ 4 ∧ ((List.range 40).filter fun i => w.getD i 0 ≠ v.getD i 0).length ≤ k)
    ∧ (rsDetect w = some (v, k) → v = w ∧ k = 0 ∧ isCodeword w = true))
  ∧ (∀ (j : PanelJournal) (b : List Byte) (s : State) (c : Nat),
    (j.state < 256 → j.kind < 256 → j.id < 65536 → j.tableId < 65536 → j.band < 256 → j.frames < 256 → j.reached < 256 → j.x0 < 65536 → j.y0 < 65536 →
      j.w < 65536 → j.h < 65536 → j.rtc < 2 ^ 48 → j.crcNew < 2 ^ 32 → j.epochSeq < 2 ^ 32 →
      (encJournal j).length = 64 ∧ u16 (encJournal j) 62 = (crc16 ((encJournal j).take 62)).toNat ∧ readJournal (encJournal j) = some j)
    ∧ (b ≠ [] → u16 b 62 ≠ (crc16 (b.take 62)).toNat → readJournal b = none)
    ∧ (c < 256 → { s with sys := setCause c s.sys }.cause = c)
    ∧ (s.sys.rstCrc ≠ crc16 [BitVec.ofNat 8 s.sys.rstCause] → s.cause = 1))

/-- The event page of at most 128 entries is programmed when it is full, or with what it holds 1 000 ticks after its first; where its flash block
reads back nothing is lost below the store's size, and the bytes have gone by channel 13 (R357, R371); with no block left to program it in, the entries are
lost (R368). An event that comes to a full page finds it programmed first. A SEQ reservation moves on by 65 536 when
half of it is used and its record is verified, and one that is not retires its block (R372). An event whose SEQ the reservation does not cover has the
next record programmed before it, which counts once it verifies. Log entries 88 and 147 hold the readings it rests on. -/
def Obligations.EventStore : Prop :=
  ∀ (s : State) (r : SeqRes) (q : Nat) (v : Ev),
    (4 ≤ s.sys.mode → s.sys.mode ≤ 12 → (128 ≤ s.mem.page.length ∨ ∃ a, s.mem.pageAt = some a ∧ a + 1000 ≤ s.tick) →
      ∃ t, exec .eventPageFlush s = .next t ∧ t.mem.page = [] ∧ t.mem.pageAt = none ∧ t.dec = s.dec ∧ t.field = s.field ∧ t.hif = s.hif ∧ t.rtc = s.rtc
        ∧ State.programs { s with mem := { s.mem with store := t.mem.store, page := [], pageAt := none } } t
        ∧ ((s.chan 13).busy = false → (t.chan 13).state = 5 ∧ (t.chan 13).done = 4096) ∧ (∀ c ≠ 13, t.chan c = s.chan c)
        ∧ t.mem.retired = s.mem.retired + BitVec.ofNat 16 (Config.badPages s.free 1).length
        ∧ (s.mem.store.length + s.mem.page.length ≤ storeKeeps → t.mem.store = if s.programsOk 1 then s.mem.store ++ s.mem.page else s.mem.store))
    ∧ (s.mem.page.length < 128 → (∀ a, s.mem.pageAt = some a → s.tick < a + 1000) → exec .eventPageFlush s = .next s)
    ∧ (s.mem.page.length ≤ 128 → (placeEvent s v).mem.page.length ≤ 128 ∧ v ∈ (placeEvent s v).mem.page ∧ (placeEvent s v).mem.lastSeq = v.seq)
    ∧ (s.mem.page = [] → (placeEvent s v).mem.pageAt = some s.tick)
    ∧ (6 ≤ s.sys.mode → s.sys.mode ≤ 12 → s.mem.res = some r → sub32 (r.res + 1) s.dec.seq ≤ 32768 →
      (s.mem.resLog.length < 49152 → exec (.seqReservation true) s = .next { s with mem := { s.mem with
        res := some { res := (r.res + 65536) % 2 ^ 32, tick := s.tick }
        resLog := s.mem.resLog ++ [{ res := (r.res + 65536) % 2 ^ 32, tick := s.tick }] } })
      ∧ exec (.seqReservation false) s = .next (retireBlock 0x00300000 s))
    ∧ (s.mem.res = some r → 2 ^ 31 ≤ sub32 r.res q →
      (reserveFor q s).mem.res.map (·.res) = some (if s.programsOk 1 then (r.res + 65536) % 2 ^ 32 else r.res))
    ∧ (s.mem.res = some r → sub32 r.res q < 2 ^ 31 → reserveFor q s = s)

/-! Power and reset (16). -/

/-- Supplies (R285, R435, R436, R454, R481): a lost feed with the other present raises its event and cause, one restored within its limits ends it, and one that is
still out then has its own; over-voltage is kept until the feed is back; a battery takes OFF to
BACKUP, and starts a backup domain that had no supply; its loss in BACKUP leaves OFF, and the backup domain and the journals with nothing of what they
held. The power-fail sequence (R457): NODE_OK opens, the warning's tick is kept and running channels 0 to 11 drain; when the area is complete the
module is in RESET with cause POWER_FAIL (3), the field side unpowered and the power-on reset held while no feed is back. A warning in the Lull stages the power-off states of every output at once.
The area goes into an erased place with its header valid, the checkpoint of the warning's tick and the page buffer, where its pages read back (R373). -/
def Obligations.Supplies : Prop :=
  (∀ (s : State) (b : Bool) (mv : Nat),
    (s.present b = true → (mv < 16000 ∨ 34000 < mv) → s.present (!b) = true → ∃ t, exec (.vinLost b mv) s = .next t ∧ t.present b = false
      ∧ t.present (!b) = true ∧ (1, b2n b) ∈ t.causes ∧ t = { s with sys := t.sys, causes := t.causes, rec_ := t.rec_ })
    ∧ (s.present b = false → (if s.tooHigh b then 18000 ≤ mv ∧ mv ≤ 32000 else 17000 ≤ mv ∧ mv ≤ 34000) → 4 ≤ s.sys.mode →
      ∃ t, exec (.vinRestored b mv) s = .next t ∧ t.present b = true ∧ t.tooHigh b = false ∧ (1, b2n b) ∉ t.causes
      ∧ (s.present (!b) = false → (1, b2n !b) ∈ t.causes) ∧ t.field.powered = (s.field.powered || s.sys.porHeld)
      ∧ t = { s with sys := t.sys, causes := t.causes, rec_ := t.rec_, field := { s.field with powered := t.field.powered } })
    ∧ (s.present b = false → (if s.tooHigh b then mv < 18000 ∨ 32000 < mv else mv < 17000 ∨ 34000 < mv) → exec (.vinRestored b mv) s = .next s)
    ∧ (34000 < mv → ∃ t, exec (.vinLost b mv) s = .next t ∧ t.present b = false ∧ t.tooHigh b = true)
    ∧ (2000 ≤ mv → s.sys.mode = 1 → s.rtc.up = true →
      exec (.vbatApplied mv) s = .next { s with sys := { s.sys with vbat := true, mode := 2, prevMode := 1 } })
    ∧ (2000 ≤ mv → s.sys.mode = 1 → s.rtc.up = false → exec (.vbatApplied mv) s = .next { s with
        rtc := {}, sys := { setCause 1 s.sys with vbat := true, mode := 2, prevMode := 1 }, panels := s.panels.map fun p => { p with journal := [] } })
    ∧ (s.sys.mode = 2 → exec .vbatLoss s = .next { s with
        rtc := { up := false }, sys := { setCause 1 s.sys with vbat := false, mode := 1, prevMode := 2 }
        panels := s.panels.map fun p => { p with journal := [] } }))
  ∧ (∀ (s : State) (a b w : Nat) (c : Fin 12) (z : Option PfArea),
    (4 ≤ s.sys.mode → s.sys.mode ≤ 12 → s.sys.powerFail = none → (s.present false = true → a < 16000 ∨ 34000 < a) →
      (s.present true = true → b < 16000 ∨ 34000 < b) → (s.ticking = false ∨ s.time.phase < 3) → ∃ t, exec (.powerFail a b) s = .next t ∧ t.sys.powerFail = some s.tick
      ∧ t.sys.nodeOk = false ∧ t.present true = false ∧ t.present false = false ∧ t.sys.mode = s.sys.mode
      ∧ t = { s with sys := t.sys, rec_ := t.rec_, mem := { s.mem with chans := t.mem.chans } }
      ∧ ((s.chan c).state = 1 → t.chan c = { s.chan c with pause := true, state := 3, feed := if (s.chan c).failing = 0 then [] else (s.chan c).feed }))
    ∧ (s.ticking = true → 3 ≤ s.time.phase → s.sys.powerFail = none → (s.present false = true → a < 16000 ∨ 34000 < a) →
      (s.present true = true → b < 16000 ∨ 34000 < b) → ∃ t, exec (.powerFail a b) s = .next t ∧ t.sys.powerFail = some s.tick
      ∧ t.sys.nodeOk = false ∧ t.field.staged = powerOffOutputs s.cfg.e s.dec ∧ t.field.stagedFull = true ∧ t.field.applied = s.field.applied
      ∧ t.rtc = s.rtc)
    ∧ (4 ≤ s.sys.mode → s.sys.powerFail = some w → ∃ t, exec .powerFailAreaDone s = .next t ∧ t.sys.mode = 3 ∧ t.sys.rstCause = 3
      ∧ t.field.powered = (s.present false || s.present true) ∧ t.sys.porHeld = !(s.present false || s.present true) ∧ t.rtc = s.rtc.moduleReset
      ∧ (∀ rs p, t.sys.porHeld = true → exec (.resetRelease rs p) t = .next t)
      ∧ (s.mem.areas = [none, z] → ∃ x, t.mem.areas = [if s.programsOk 256 then some x else none, z] ∧ x.valid = true ∧ x.page = s.mem.page
        ∧ x.ckpt.map (·.tick) = some w)))

/-- What a reset leaves (R435, R460, R461): RESET with its cause; the backup domain untouched but for HALT, SHORE, held writes and the
gate; flash and host memory as they were; every other domain at its reset values. A POR with both feeds gone leaves the module to its battery, or OFF
with nothing in the backup domain. The start of the backup domain from no supply leaves every register of the RTC window at its
reset value, OSC_STOP, VBAT_LOST and HOLD among them, and the journals empty; one that has supply does not start again. A reset cause whose record fails
its CRC counts as absent (R21). A low on RESET_N of 10 µs resets, but for the first 100 µs after the module has released the line, and holds the stretch
while it lasts (R511). A module of set A whose heartbeat is lost decides no tick and writes no block; its switch goes on by the NET clock (R460). V33_OUT
and the converter are on when a POR has released (R455, R456). Log entries 5, 89, 90, 133 and 155 hold the readings it rests on. -/
def Obligations.Resets : Prop :=
  ∀ (s : State) (ns us : Nat) (lasts : Bool) (w : Window),
    (4 ≤ s.sys.mode → 10000 ≤ ns → 100 ≤ us → ∃ t, exec (.resetN { ns := ns, lasts := lasts, us := us }) s = .next t ∧ t.sys.extLow = lasts ∧ t.cause = 2 ∧ t.sys.rstCause = 2 ∧ t.sys.mode = 3 ∧ t.sys.prevMode = s.sys.mode
      ∧ t.sys.nodeOk = false ∧ t.rtc = s.rtc.moduleReset ∧ t.rtc.cnt = s.rtc.cnt ∧ t.rtc.halt = false ∧ t.rtc.shore = false
      ∧ t.cfg = { slots := s.cfg.slots } ∧ t.mem.opts = s.mem.opts ∧ t.mem.store = s.mem.store ∧ t.mem.images = s.mem.images ∧ t.mem.dram = []
      ∧ t.hif = { mem := s.hif.mem } ∧ t.dom = {} ∧ t.net = {} ∧ t.time = {} ∧ t.eng = {} ∧ t.work = none ∧ t.dec = {} ∧ t.pending = s.pending)
    ∧ (4 ≤ s.sys.mode → us < 100 → exec (.resetN { ns := ns, lasts := lasts, us := us }) s = .next s) ∧ (ns < 10000 → exec (.resetN { ns := ns, lasts := lasts, us := us }) s = .next s)
    ∧ (s.sys.mode = 3 → 10000 ≤ ns → exec (.resetN { ns := ns, lasts := lasts, us := us }) s = .next { s with sys := { s.sys with extLow := lasts } })
    ∧ (s.sys.extLow = true → ∀ rs p, exec (.resetRelease rs p) s = .next s)
    ∧ (4 ≤ s.sys.mode → s.sys.mode ≤ 12 → s.mem.optUse.setB = true → s.sys.hbLost = false → ∃ t, exec .heartbeat s = .next t ∧ t.sys.mode = 3 ∧ t.cause = 6)
    ∧ (4 ≤ s.sys.mode → s.sys.mode ≤ 12 → s.mem.optUse.setB = false → ∃ t, exec .heartbeat s = .next t ∧ t.hif.arisen = []
      ∧ t = { s with sys := { s.sys with hbLost := true, nodeOk := false }, hif := t.hif })
    ∧ (5 ≤ s.sys.mode → s.sys.mode ≤ 12 → s.sys.hbLost = true →
      (∃ t, exec (.tickEdge w) s = .next t ∧ t.tick = (s.tick + 1) % 2 ^ 48
        ∧ t = { s with time := { s.time with num := t.tick, phase := 0 }, net := { s.net with out := [] }, work := none, rec_ := { s.rec_ with block := none } })
      ∧ (∃ t, exec .evaluatePhase s = .next t ∧ t = { s with time := { s.time with phase := t.time.phase }, net := t.net })
      ∧ exec .publishPhase s = .next s)
    ∧ (4 ≤ s.sys.mode → ∃ t, exec .por s = .next t ∧ t.cause = 1 ∧ t.sys.v33 = (s.sys.presentA || s.sys.presentB)
      ∧ t.field.powered = (s.sys.presentA || s.sys.presentB)
      ∧ t.sys.mode = (if s.sys.presentA || s.sys.presentB then 3 else if s.sys.vbat then 2 else 1)
      ∧ t.rtc = if s.sys.presentA || s.sys.presentB || s.sys.vbat then s.rtc.moduleReset else { up := false })
    ∧ (s.rtc.up = false → ∃ t, exec .backupDomainStart s = .next t ∧ t = { s with rtc := {}, sys := setCause 1 s.sys, panels := t.panels }
      ∧ t.cause = 1 ∧ t.rtc.cnt = 0 ∧ t.rtc.oscStop = true ∧ t.rtc.vbatLost = true ∧ t.rtc.hold = true ∧ t.rtc.latch = false ∧ t.rtc.halt = false
      ∧ ∀ p ∈ t.panels, p.journal = [])
    ∧ (s.rtc.up = true → exec .backupDomainStart s = .next s)
    ∧ (s.sys.rstCrc ≠ crc16 [BitVec.ofNat 8 s.sys.rstCause] → s.cause = 1)

/-- RESET ends in BOOT with the strap read, its role and variant, and the option block in use (R462, R467, R468): every other field stands as it was.
A RECOVERY request counts as that variant once, and without a valid option block RECOVERY it is (R481, R468). BOOT ends in the mode that
Table: Mode transitions names, with boost converter B found where both inductances lie in 4.7 to 22 µH (R509): RECOVERY, TEST, CONFIGURE, SYNC of a committed epoch with AUTO_RUN that passes its checks (R394), or with
both engines failing SAFE-HOLD; with the field side released, the first SEQ past every reservation (R372), and on a manager or standalone module the tick that continues (R32). Log entries 91, 92, 144 and
145 hold the readings it rests on. -/
def Obligations.Boot : Prop :=
  ∀ (s x : State) (rs : List Nat) (p a b : Bool) (v swp swn : Nat) (u : OptBlock) (e : Epoch),
    (s.sys.mode = 3 → s.sys.powerFail = none → s.sys.porHeld = false → s.sys.extLow = false →
      v = (if s.sys.recoveryOnce then 2 else (strapRole (latchStrap rs).1).2) → optInUse s.mem v = some u →
      exec (.resetRelease rs p) s = .next { s with
        sys := { s.sys with role := (strapRole (latchStrap rs).1).1, variant := v, code := (latchStrap rs).1, guard := (latchStrap rs).2, ratio := rs.getLastD 0
                            mode := 4, prevMode := 3, recoveryOnce := false, v33 := true, perstHigh := p }
        field := { s.field with powered := true, dead := true, strobes := 0 }
        hif := { s.hif with released := decide ((strapRole (latchStrap rs).1).1 < 3) && p }
        mem := { s.mem with optUse := u, optPend := s.mem.newestOpt.getD u }
        dom := { s.dom with id := u.domain.toNat, idNext := u.domain.toNat, levelSet := u.level.toNat
                            dev := if (strapRole (latchStrap rs).1).1 < 2 then 0 else if (strapRole (latchStrap rs).1).1 = 2 then 1 else u.devNum.toNat } })
    ∧ (s.sys.mode = 3 → s.sys.powerFail = none → s.sys.porHeld = false → s.sys.extLow = false →
      v = (if s.sys.recoveryOnce then 2 else (strapRole (latchStrap rs).1).2) → ∃ t,
      exec (.resetRelease rs p) s = .next t ∧ t.sys.mode = 4 ∧ t.sys.role = (strapRole (latchStrap rs).1).1 ∧ t.field.dead = true ∧ t.rtc = s.rtc
      ∧ t.mem.store = s.mem.store ∧ t.sys.variant = (if optInUse s.mem v = none then 2 else v))
    ∧ (s.sys.mode = 4 → ∃ t, exec (.bootDone (a, b) (swp, swn)) s = .next t ∧ t.field.dead = false ∧ t.rtc = s.rtc ∧ t.sys.role = s.sys.role
      ∧ t.sys.boostB = decide (4700 ≤ swp ∧ swp ≤ 22000 ∧ 4700 ≤ swn ∧ swn ≤ 22000)
      ∧ t.eng.a = (if a then 1 else 6) ∧ t.eng.b = (if b then (if a then 0 else 1) else 6)
      ∧ (s.sys.variant = 2 ∨ s.mem.runSlot = none → t.sys.mode = 5)
      ∧ (s.sys.variant ≠ 2 → s.mem.runSlot ≠ none → a = false → b = false → t.sys.mode = 12)
      ∧ (s.sys.variant = 3 → s.mem.runSlot ≠ none → a || b → t.sys.mode = 6)
      ∧ (s.sys.variant = 1 → s.mem.runSlot ≠ none → a || b → t.sys.mode = 7)
      ∧ (s.sys.variant = 0 → s.mem.runSlot ≠ none → a || b → s.cfg.slots.take 2 = [none, none] → t.sys.mode = 7 ∧ t.cfg.has = false)
      ∧ (x = { s with sys := { s.sys with boostB := t.sys.boostB }, mem := { s.mem with running := s.mem.runSlot.getD 0 } } → s.sys.variant = 0 → s.mem.runSlot ≠ none → a || b →
        s.cfg.slots.head? = some (some e) → recheckOk x.stageCtx e = true → e.mode.autoRun = true → s.badDev = false →
        t.sys.mode = 8 ∧ t.cfg.e = e ∧ t.cfg.has = true ∧ t.field.route = e.route ∧ t.field.stagedFull = true
        ∧ t.dec.seq = firstSeq s.mem ∧ (s.sys.role < 2 → t.tick = bootTick s)))

/-! Gust, digests and membership (02, 09, 10). -/

/-- Gust segments (R40, R296, R297, R304): one more segment of the tick is kept, segment 0 with the offset that its copy gives; with the last of
the four, an admitted worker in RUN takes the Gust and its epoch for good, one that names another epoch is none, and a listening worker in SYNC takes it with its
tick number and holds domain time from then on (R29, R305); a standalone module takes none (R2). At 760 µs the segments close, θ is that of port E0's
copy when it is complete, else of E1's, and a module without the complete Gust counts it missed. Log entry 156 holds what the count's step in SYNC
moves with it. -/
def Obligations.GustReception : Prop :=
  ∀ (s : State) (h : Hdr) (p body : List Byte) (l : Int) (old segs : List ((Nat × Nat) × List Byte)) (offs : Tbl Int) (g : Gust),
    old = (if s.dom.segTick = some h.tick then s.dom.segs else []) → segs = (old.filter fun x => x.1 ≠ (h.port, h.seg)) ++ [((h.port, h.seg), p)] →
    offs = (if h.seg = 0 then tset 0 s.dom.offsets h.port (thetaOf p l ((s.from h).port h.port)) else s.dom.offsets) →
    (s.takes h 1 0 = true → s.sys.role ≠ 0 → s.dom.gustClosed = false → h.seg ≤ 3 → p.length = (if h.seg = 0 then 1178 else 1162) →
      ((s.sys.mode ≠ 8 ∨ s.dom.adopted = true) → h.tick = s.tick → gustPayload segs = none →
        exec (.gustSegment h p l) s = .next { s.from h with dom := { (s.from h).dom with segs := segs, segTick := some h.tick, offsets := offs } })
      ∧ (s.sys.mode ≠ 8 → h.tick = s.tick → s.dom.serving = false → gustPayload old = none → gustPayload segs = some body → (decGust body).tick = h.tick →
        ∃ t, exec (.gustSegment h p l) s = .next t ∧ t.tick = s.tick ∧ t.sys.mode = s.sys.mode ∧ t.dom.complete = s.dom.complete + 1 ∧ t.dom.gustMiss = 0
          ∧ t = { s.from h with dom := t.dom, cfg := t.cfg, dec := t.dec, work := t.work }
          ∧ ((decGust body).epochId = expectedEpoch (decGust body) s → t.dom.gustNow = some (decGust body) ∧ t.dom.srcNow = h.src)
          ∧ (s.dom.admitted = true → (decGust body).epochId ≠ expectedEpoch (decGust body) s → s.dom.admitTick ≠ some (s.tick + 1) →
            t.dom.gustNow = s.dom.gustNow))
      ∧ (s.sys.mode = 8 → s.sys.role = 3 → s.dom.adopted = false → s.dom.serving = false → s.dom.admitted = false → s.dom.admitTick = none →
        gustPayload old = none → gustPayload segs = some body → (decGust body).tick = h.tick →
        ∃ t, exec (.gustSegment h p l) s = .next t ∧ t.dom.gustNow = some (decGust body) ∧ t.dom.srcNow = h.src
          ∧ t.tick = h.tick ∧ t.time.domain = true ∧ t.dom.adopted = true ∧ t.dom.complete = s.dom.complete + 1
          ∧ t = { retime ((h.tick : Int) - s.tick) (s.from h) with dom := t.dom, time := t.time, cfg := t.cfg, dec := t.dec, work := t.work }))
    ∧ (s.takes h 1 0 = true → s.sys.role = 0 → exec (.gustSegment h p l) s = .next (s.from h))
    ∧ (s.ticking = true → s.time.domain = true → s.dom.gustClosed = false →
      (s.dom.gustNow = some g → exec .gustDeadline s = .next { s with dom := { (align s).dom with gustClosed := true, gustMiss := 0 } })
      ∧ (s.dom.gustNow = none → s.dom.serving = false → ∃ t, exec .gustDeadline s = .next t ∧ t = { s with dom := t.dom }
        ∧ t.dom.gustClosed = true ∧ t.dom.gustMiss = s.dom.gustMiss + 1)
      ∧ (s.dom.serving = false → gustPayload s.dom.segs = some body → s.dom.segTick = some (decGust body).tick →
        ((∀ k < 4, segOf s.dom.segs 0 k ≠ none) → (align s).dom.theta = tget 0 s.dom.offsets 0)
        ∧ ((∃ k < 4, segOf s.dom.segs 0 k = none) → segOf s.dom.segs 1 0 ≠ none → (align s).dom.theta = tget 0 s.dom.offsets 1)))

/-- A Sprinzet frame as it leaves a port (R294, R295, R296): destination by type, this module's source address, the HSR tag with its sequence
number, the inner type 0x88B5, header, payload, zeros up to the shortest length, and the FCS over all before it; and the payload lengths of
Table: Sprinzet frame types. Log entry 126 holds the reading of path and LSDU size. -/
def Obligations.FrameBytes : Prop :=
  ∀ (s : State) (port seq : Nat) (f : Frame) (w : List Byte) (g : Gust) (d : Digest) (m : Nat) (q : JoinReq) (r : JoinResp) (c : Cmd) (x : Compl) (b : Bulk) (st : List Byte),
    (w = wireBytes s port seq f → f.payload.length = f.payloadLen → w.length = f.len ∧ 64 ≤ w.length
      ∧ w.take 6 = beBytes 6 (destMac s f) ∧ (w.drop 6).take 6 = beBytes 6 Config.mac ∧ (w.drop 12).take 2 = [0x89#8, 0x2F#8]
      ∧ (w.drop 16).take 2 = beBytes 2 seq ∧ (w.drop 18).take 2 = [0x88#8, 0xB5#8] ∧ (w.drop 20).take 16 = encHeader s f
      ∧ (w.drop 36).take f.payloadLen = f.payload ∧ (∀ y ∈ (w.take (w.length - 4)).drop (36 + f.payloadLen), y = 0)
      ∧ w.drop (w.length - 4) = leBytes 4 (crc32 (w.take (w.length - 4))))
    ∧ destMac s (.gust m g) = groupMac 1 ∧ destMac s (.digest d) = groupMac 2 ∧ destMac s (.status m st) = groupMac 2
    ∧ destMac s (.joinRequest q) = groupMac 3 ∧ destMac s (.joinResponse m r) = m ∧ destMac s (.completion m x) = s.macOf s.dom.srcNow
    ∧ (Frame.command m seq c).payload.length = 36 ∧ (Frame.completion m x).payload.length = 36 ∧ (Frame.joinRequest q).payload.length = 48
    ∧ (Frame.joinResponse m r).payload.length = 24 ∧ (Frame.bulk m b).payload.length = 24 + b.data.length
    ∧ (encHeader s f).length = 16

/-- Digests at the serving module of a domain (R48): one that names its tick and the epoch in force, from an admitted device not yet heard, is kept
for the cut-off and returns credits; one of another tick or epoch is not. Status frames (R296, R317, R350): a worker or standby sends its block every 1 000 ticks and on change, and
keeps it (what counts as a change is the model's choice, log entry 159); the serving module keeps a device's latest. -/
def Obligations.DigestAndStatusFrames : Prop :=
  ∀ (s : State) (h : Hdr) (p : List Byte),
    (s.takes h 2 0 = true → s.domain = true → s.time.phase < 4 → s.dom.closed = false → (decDigest p).tick = s.tick →
      (decDigest p).epochId = s.epochNow → (decDigest p).dev = h.src →
      s.isAdmitted h.src = true → h.src ≠ s.dom.dev → (∀ y ∈ s.dom.digests, y.dev ≠ h.src) →
      ∃ t, exec (.digestReceive h p) s = .next t ∧ t = { s.from h with dom := t.dom } ∧ decDigest p ∈ t.dom.digests
        ∧ (∀ y ∈ s.dom.digests, y ∈ t.dom.digests) ∧ (t.peer h.src).ret = (decDigest p).creditRet
        ∧ ∀ d ≠ h.src, t.peer d = s.peer d)
    ∧ (s.takes h 2 0 = true → ((decDigest p).tick ≠ s.tick ∨ (decDigest p).epochId ≠ s.epochNow) → exec (.digestReceive h p) s = .next (s.from h))
    ∧ (s.ticking = true → 2 ≤ s.sys.role → s.dom.serving = false → s.statusDue = true → s.inReset 0x11 = false → ∃ f, exec .statusFrameSend s = .next { s with
        dom := { s.dom with lastStatus := statusBlock s, statusSent := some s.tick, statusKey := statusKey (statusBlock s) }
        net := { s.net with held := s.net.held ++ [Frame.held f] } }
      ∧ f = .status (if s.dom.admitted then s.dom.dev else 0xFE) (statusBlock s))
    ∧ (s.statusDue = false → exec .statusFrameSend s = .next s)
    ∧ (s.statusDue = true ↔ (∀ x, s.dom.statusSent = some x → x + 1000 ≤ s.tick) ∨ statusKey (statusBlock s) ≠ s.dom.statusKey)
    ∧ (s.takes h 7 1 = true → s.domain = true → p.length = 512 → u8 p 0 ≤ 63 → s.isAdmitted (u8 p 0) = true → ∃ t, exec (.statusFrame h p) s = .next t
      ∧ t = { s.from h with dom := t.dom } ∧ (t.peer (u8 p 0)).status = p
      ∧ (t.peer (u8 p 0)).staged = u64 p 24 ∧ ∀ d ≠ u8 p 0, t.peer d = s.peer d)

/-- The cut-off (R48, R53): the digests of the tick close; the serving module has the next Gust, with at most 8 inputs; on any other
module that does not take over, frames that wait may leave, and nothing else changes. Log entries 28, 35 and 128 hold the readings it rests on. -/
def Obligations.DigestCutoff : Prop :=
  ∀ (s : State), s.ticking = true → 7 ≤ s.sys.mode → 3 ≤ s.time.phase → s.dom.closed = false → s.dom.taking = false → s.sys.resetDue = none →
    (s.master = true → ∃ t, exec .digestCutoff s = .next t ∧ t.time.phase = 4 ∧ t.dom.closed = true ∧ t.dom.digests = []
      ∧ t.rtc = s.rtc ∧ t.mem = s.mem ∧ t.field = s.field ∧ ((∀ x ∈ s.view.scheds, x.ring ≠ none → x.input.opcode ≠ 0x21) → t.hif = s.hif)
      ∧ ∃ g, t.dom.gustNext = some g ∧ g.tick = (s.tick + 1) % 2 ^ 48 ∧ g.inputs.length ≤ 8)
    ∧ (s.master = false → ∃ t, exec .digestCutoff s = .next t ∧ t = { s with
        time := { s.time with phase := 4 }, dom := { s.dom with closed := true }, net := t.net })

/-- The standby (R275, R276): it keeps the newest role checkpoint and journals; with two Gusts missed it takes over, completes its
first Gust at the cut-off of that Lull, marked FROM_STANDBY, and serves from the edge at which that Gust leaves, with no
standby manager left. Log entry 54 holds the reading it rests on. -/
def Obligations.Standby : Prop :=
  ∀ (s : State) (h : Hdr) (c : RoleCkpt) (j : Journal) (w : Window) (g : Gust), s.dom.serving = false → s.sys.role = 2 →
    (s.takes h 8 2 = true → (∃ t, exec (.managerStream h (.role c)) s = .next t ∧ t = { s.from h with dom := t.dom } ∧ t.dom.role = some c
        ∧ t.dom.journal = s.dom.journal.filter fun j => c.tick ≤ j.tick)
      ∧ ∃ t, exec (.managerStream h (.journal j)) s = .next t ∧ t = { s.from h with dom := t.dom } ∧ t.dom.journal = s.dom.journal ++ [j])
    ∧ (s.dom.role = some c → s.dom.taking = false → s.decides = true → s.dom.admitted = true → s.dom.island = false → 2 ≤ s.dom.gustMiss → 3 ≤ s.time.phase →
      (s.dom.closed = false → exec .managerLost s = .next { s with dom := { s.dom with taking := true } })
      ∧ (s.dom.closed = true → ∃ t x, exec .managerLost s = .next t ∧ t.dom.taking = true ∧ t.dom.serving = false ∧ t.dom.gustNext = some x
        ∧ x.fromStandby = true ∧ x.tick = (s.tick + 1) % 2 ^ 48 ∧ t.rtc = s.rtc ∧ t.field = s.field))
    ∧ (s.dom.role = some c → s.dom.taking = true → s.decides = true → 3 ≤ s.time.phase → s.dom.closed = false → s.sys.resetDue = none →
      ∃ t x, exec .digestCutoff s = .next t ∧ t.dom.taking = true ∧ t.dom.serving = false ∧ t.dom.closed = true ∧ t.dom.gustNext = some x
        ∧ x.fromStandby = true ∧ x.tick = (s.tick + 1) % 2 ^ 48 ∧ t.rtc = s.rtc ∧ t.field = s.field)
    ∧ (s.dom.role = some c → s.dom.taking = true → s.dom.gustNext = some g → s.ticking = true → s.hif.jobs = [] →
      ∃ t, exec (.tickEdge w) s = .next t ∧ t.dom.serving = true ∧ t.dom.standby = false ∧ t.dom.taking = false
        ∧ t.dom.tookOver = some ((s.tick + 1) % 2 ^ 48) ∧ t.dom.gustOut = some g ∧ (14, 0) ∈ t.causes ∧ t.rtc = { s.rtc with gate := t.rtc.gate })

/-- Islands (R57, R481): the 9th tick without a Gust makes one, and 16 complete Gusts take it back to SYNC out of RUN-DEGRADED alone. A device missing 64
digests is de-admitted, with its flights ended (R308).
Alignment (R305): 16 Gusts beyond 1 µs raise the condition, 64 within it end it. Log entry 51 holds the reading it rests on. -/
def Obligations.IslandsAndLeaving : Prop :=
  ∀ (s : State) (d : Fin 64),
    (s.decides = true → s.dom.serving = false → s.dom.island = false → 9 ≤ s.dom.absent → s.time.phase = 0 → ∃ t, exec .islandEntry s = .next t
      ∧ t.dom.island = true ∧ t.dom.admitted = false ∧ (13, 0) ∈ t.causes
      ∧ t = { s with dom := t.dom, causes := t.causes, sys := t.sys, rec_ := t.rec_, cfg := { s.cfg with switch := none } })
    ∧ (s.sys.mode = 10 → s.sys.hbLost = false → s.dom.island = true → s.dom.refused = false → 16 ≤ s.dom.complete → s.dom.islandCause ≠ 0x10 →
      s.badDev = false → ∃ t, exec .islandRejoin s = .next t ∧ t.sys.mode = 8 ∧ t.rtc = s.rtc)
    ∧ (s.sys.mode ≠ 10 → exec .islandRejoin s = .next s)
    ∧ (s.dom.serving = true → 64 ≤ (s.peer d).missing → (s.peer d).admitAt ≠ none → ∃ t, exec (.devLeft d) s = .next t
      ∧ (t.peer d).admitAt = none ∧ (t.peer d).flights = [] ∧ (∀ e ≠ d.val, t.peer e = s.peer e) ∧ t.rtc = s.rtc ∧ t.field = s.field)
    ∧ (s.decides = true → s.dom.serving = false → s.dom.island = false → s.dom.thetaFar < 16 → 16 ≤ s.dom.thetaBad → (12, 0) ∉ s.causes →
      ∃ t, exec .timeAlign s = .next t ∧ (12, 0) ∈ t.causes ∧ t = { s with causes := t.causes, sys := t.sys, rec_ := t.rec_ })
    ∧ (s.decides = true → s.dom.serving = false → s.dom.island = false → s.dom.thetaFar < 16 → s.dom.thetaBad < 16 → 64 ≤ s.dom.thetaGood →
      ∃ t, exec .timeAlign s = .next t ∧ (12, 0) ∉ t.causes ∧ t = { s with causes := t.causes, sys := t.sys, rec_ := t.rec_ })
    ∧ (s.decides = true → s.dom.serving = false → s.dom.island = false → 16 ≤ s.dom.thetaFar → ∃ t, exec .timeAlign s = .next t ∧ t.sys.mode = 8
      ∧ t.rtc = s.rtc)

/-- Joining (R312 to R316): the request goes out when due; the serving module of a domain keeps it for its Lull, and there answers with the next
multiple of 16 at least 32 ticks on, or its refusal; the device takes the admission tick, or runs as an island of that cause once domain time has
passed its last recorded tick (R29; log entry 157). -/
def Obligations.Joining : Prop :=
  ∀ (s : State) (h : Hdr) (r : JoinReq) (q : JoinResp),
    (2 ≤ s.sys.role → s.dom.serving = false → s.dom.admitTick = none → s.dom.islandCause ≠ 0x10 → s.sys.mode = 8 → 64 ≤ s.dom.aligned →
      s.dom.joinSent = none → s.inReset 0x11 = false → exec .joinRequestSend s = .next { s with
        dom := { s.dom with joinSent := some s.tick }, net := { s.net with held := s.net.held ++ [Frame.held (.joinRequest (joinReq s))] } })
    ∧ (s.takes h 5 1 = true → s.domain = true → s.time.phase < 3 → exec (.joinRequest h r) s = .next { s.from h with
        dom := { (s.from h).dom with joins := s.dom.joins ++ [r] } })
    ∧ (s.takes h 5 1 = true → s.domain = true → 3 ≤ s.time.phase → ∃ t, exec (.joinRequest h r) s = .next t ∧ t = decideJoin (s.from h) r)
    ∧ (s.isAdmitted r.dev = false → refusal r s = 0 → s.inReset 0x11 = false → ∀ t, t = decideJoin s r →
      (t.peer r.dev).admitAt = some ((s.tick + 32 + 15) / 16 * 16) ∧ (t.peer r.dev).mac = r.mac ∧ (∀ e ≠ r.dev, t.peer e = s.peer e)
      ∧ (∃ x : JoinResp, t.net = { s.net with held := s.net.held ++ [Frame.held (.joinResponse r.mac x)] } ∧ x.result = 0
        ∧ x.admitAt = (s.tick + 32 + 15) / 16 * 16)
      ∧ t = { s with dom := t.dom, net := t.net, dec := t.dec, work := t.work, causes := t.causes, sys := t.sys, rec_ := t.rec_ })
    ∧ (s.isAdmitted r.dev = false → refusal r s ≠ 0 → s.inReset 0x11 = false → ∀ t, t = decideJoin s r →
      (t.peer r.dev).admitAt = (s.peer r.dev).admitAt ∧ (t.peer r.dev).refusedFor = refusal r s ∧ (∀ e ≠ r.dev, t.peer e = s.peer e)
      ∧ t.net = { s.net with held := s.net.held ++
        [Frame.held (.joinResponse r.mac { result := refusal r s, dev := r.dev, level := s.dom.level, admitAt := 0, epochId := 0 })] }
      ∧ t = { s with dom := t.dom, net := t.net, rec_ := t.rec_ })
    ∧ (s.takes h 6 1 = true → s.dom.serving = false → 2 ≤ s.sys.role → q.dev = s.dom.dev → q.result = 0 →
      exec (.joinResponse h q) s = .next { s.from h with
        dom := { (s.from h).dom with admitTick := some q.admitAt, admitEpoch := q.epochId, refused := false, level := q.level } })
    ∧ (s.takes h 6 1 = true → s.dom.serving = false → 2 ≤ s.sys.role → q.dev = s.dom.dev → q.result ≠ 0 → ∃ t, exec (.joinResponse h q) s = .next t
      ∧ t.dom.refused = true ∧ t.dom.island = true ∧ t.dom.islandCause = q.result
      ∧ (s.sys.mode = 8 → s.time.domain = true → (∀ l, s.time.lastRec = some l → l ≤ s.tick) → t.sys.mode = 10)
      ∧ (s.sys.mode = 8 → s.time.domain = false ∨ (∃ l, s.time.lastRec = some l ∧ s.tick < l) → t.sys.mode = 8))

/-- Admission and service (R315, R481): in the Lull before the admission tick, or the first one later whose tick is past the record (R29), the
module is admitted and decides in RUN or RUN-DEGRADED; in CONFIGURE it is admitted and stays; before the record's end it stays in SYNC, and an
island in BLACKOUT stays there. A manager that heard none for 200 ticks names S0 and serves from it, with the UTC offset of its newest good
checkpoint (R493). -/
def Obligations.AdmissionAndService : Prop :=
  ∀ (s : State) (x a : Nat),
    (s.dom.admitTick = some a → a ≤ s.tick + 1 → 3 ≤ s.time.phase → s.dom.admitted = false → (∀ l, s.time.lastRec = some l → l < s.tick + 1) →
      (s.sys.mode = 8 → ∃ t, exec .admissionTick s = .next t
        ∧ t.dom.admitted = true ∧ t.dom.admittedAt = some ((s.tick + 1) % 2 ^ 48) ∧ t.dom.island = false ∧ t.dom.admitTick = none ∧ (t.sys.mode = 9 ∨ t.sys.mode = 10) ∧ t.rtc = s.rtc)
      ∧ (s.sys.mode = 7 → ∃ t, exec .admissionTick s = .next t
        ∧ t.dom.admitted = true ∧ t.dom.island = false ∧ t.dom.admitTick = none ∧ t.sys.mode = 7 ∧ t.rtc = s.rtc))
    ∧ (s.time.lastRec = some x → s.tick + 1 ≤ x → exec .admissionTick s = .next s)
    ∧ (s.sys.mode = 11 → exec .admissionTick s = .next s)
    ∧ (s.sys.mode = 8 → s.sys.role = 1 → s.dom.standby = false → s.dom.s0 = none → s.dom.listen = some x → x + 200 ≤ s.tick →
      exec .managerListenEnd s = .next { s with dom := { s.dom with listen := none, s0 := some ((s.tick + 31) / 16 * 16) } })
    ∧ (s.sys.mode = 8 → s.dom.s0 = some (s.tick + 1) → 3 ≤ s.time.phase → ∃ t, exec .servingStart s = .next t
      ∧ t.dom.serving = true ∧ t.dom.s0 = none ∧ t.sys.mode = runMode s ∧ t.rtc = s.rtc
      ∧ (∀ k, s.rec_.ckpts.find? (·.ok) = some k → t.time.offset = k.offset)
      ∧ (s.rec_.ckpts.find? (·.ok) = none → t.time.offset = s.time.offset))

/-- Mode requests in the Lull of their tick (R479): one that Table: Mode transitions allows enters its mode; one through RESET resets
with cause COMMAND (4), once no frame waits to leave. A loss of mains places BLACKOUT, and its return RUN, as inputs of the Gust (R485).
Log entries 29 and 77 hold the readings it rests on. -/
def Obligations.ModeRequests : Prop :=
  ∀ (s : State) (j : Job) (m : Nat) (u : Unit),
    (s.ticking = true → 3 ≤ s.time.phase → s.hif.jobs = [j] → isModeJob s j = true → (∀ g ∈ s.dom.inputs, g.opcode ≠ 0x02) → s.sys.resetDue = none →
      modeRequest s.sys.mode (j.cmd.arg1.toNat % 16) false s.cfg.has (runMode s) = some (.inr m) → (m = 8 → s.badDev = false) →
      ∃ t, exec .modeReqApply s = .next t ∧ t.sys.mode = m ∧ t.rtc = s.rtc)
    ∧ (s.ticking = true → 3 ≤ s.time.phase → s.hif.jobs = [j] → isModeJob s j = true → (∀ g ∈ s.dom.inputs, g.opcode ≠ 0x02) → s.sys.resetDue = none →
      s.field.survey = none → s.field.surveyEnd = none → s.field.lead = none → (∀ q, j.origin ≠ .frame q) →
      modeRequest s.sys.mode (j.cmd.arg1.toNat % 16) false s.cfg.has (runMode s) = some (.inl u) → ∃ t, exec .modeReqApply s = .next t
      ∧ (s.net.held = [] → t.sys.mode = 3 ∧ t.cause = 4 ∧ t.rtc = s.rtc.moduleReset)
      ∧ (s.net.held ≠ [] → t.sys.mode = s.sys.mode ∧ t.sys.resetDue = some 4 ∧ t.rtc = s.rtc))
    ∧ (s.dom.serving = true → s.decides = true → s.cfg.e.mode.boMains = true → s.sys.mode ≠ 11 → s.view.moOwn = false → s.cfg.e.mode.boDelay ≤ s.view.moCnt →
      s.schedsFull = false →
      ∃ t, exec .blackoutRequest s = .next t ∧ t = { s with dec := t.dec, work := t.work } ∧ t.dec.moOwn = true
        ∧ ∃ y : Sched, t.dec.scheds = s.dec.scheds ++ [y] ∧ y.apply = s.earliest ∧ y.input.opcode = 0x02 ∧ y.input.targetDev = 0xFF ∧ y.input.arg = 11)
    ∧ (s.dom.serving = true → s.cfg.e.mode.boMains = true → s.sys.mode = 11 → s.view.moOwn = true → s.cfg.e.mode.boExit ≤ s.view.moBack →
      s.schedsFull = false →
      ∃ t, exec .blackoutExitRequest s = .next t ∧ t = { s with dec := t.dec, work := t.work } ∧ t.dec.moOwn = false
        ∧ ∃ y : Sched, t.dec.scheds = s.dec.scheds ++ [y] ∧ y.apply = s.earliest ∧ y.input.opcode = 0x02 ∧ y.input.targetDev = 0xFF ∧ y.input.arg = 9)
    ∧ (s.schedsFull = true → exec .blackoutRequest s = .next s ∧ exec .blackoutExitRequest s = .next s)

/-- An announced epoch that the module has staged comes into force in the Lull before its apply tick (R389): configuration, routes and the
tick it governs from, with the ID in force before kept for the tick's digests; nothing stays staged or announced, and a pin pair that fails its
readback is stuck (R80); a flash slot whose programming fails holds no image (R376; log entry 147). One that is not staged does not; where admission has put it in force already, only the readback is left. -/
def Obligations.EpochSwitch : Prop :=
  ∀ (s : State) (st : List (Fin 64 × Fin 64)) (id a : Nat) (e : Epoch), s.dom.pend = none → 3 ≤ s.time.phase → s.ticking = true →
    (s.cfg.switch = some (id, a) → a = s.tick + 1 → s.cfg.staged = some e → e.id = id → ∃ t, exec (.epochSwitch st) s = .next t
      ∧ t.cfg.e = e ∧ t.cfg.has = true ∧ t.cfg.staged = none
      ∧ t.cfg.switch = none ∧ t.cfg.since = a % 2 ^ 48 ∧ t.cfg.prevId = s.epochId ∧ t.field.route = e.route
      ∧ (∀ k, t.cfg.slots.getD k none = (switchSlots (if s.cfg.has then some s.cfg.e else none) e s.cfg.slots).getD k none
        ∨ (t.cfg.slots.getD k none = none ∧ (k = 0 ∨ k = 1 ∨ k = 4)))
      ∧ (∀ p ∈ st, ∃ y ∈ t.field.stuck, y.a = p.1.val ∧ y.b = p.2.val) ∧ (t.field.stuck ≠ [] → (4, 0) ∈ t.causes) ∧ (t.field.stuck = [] → (4, 0) ∉ t.causes)
      ∧ t.rtc = s.rtc)
    ∧ (s.cfg.switch = some (id, a) → (∀ e, s.cfg.staged = some e → e.id ≠ id) → s.cfg.has = false ∨ s.cfg.since ≠ (s.tick + 1) % 2 ^ 48 →
      exec (.epochSwitch st) s = .next s)
    ∧ (s.cfg.switch = none → s.cfg.has = true → s.cfg.since = (s.tick + 1) % 2 ^ 48 → ∃ t, exec (.epochSwitch st) s = .next t
      ∧ (∀ p ∈ st, ∃ y ∈ t.field.stuck, y.a = p.1.val ∧ y.b = p.2.val)
      ∧ (∀ x ∈ s.field.stuck, ∃ y ∈ t.field.stuck, y.a = x.a ∧ y.b = x.b)
      ∧ (t.field.stuck ≠ [] → (4, 0) ∈ t.causes) ∧ (t.field.stuck = [] → (4, 0) ∉ t.causes)
      ∧ t.cfg = s.cfg ∧ t.field = { s.field with stuck := t.field.stuck } ∧ t.rtc = s.rtc)

/-! Ports and time references (10). -/

/-- A link that comes up is a ring port with 1000BASE-T and an interlink, which opens the ring, with 100BASE-TX (R289, R290); one that goes
down, and a ring open elsewhere, open the ring (R286). The other port keeps its state. Cable tests (R310): in BOOT, 1 s after the link went and
every 60 s while it is away, or by request, and recorded with their four pairs. Log entries 55 and 58 hold the readings it rests on. -/
def Obligations.Links : Prop :=
  ∀ (s : State) (p : Fin 2) (m x pol : Bool) (ps : List (BitVec 4 × BitVec 16)), s.net.ports.length = 2 →
    (s.phys = true → (s.port p).link = false → ∃ t, exec (.linkUp p true m x pol) s = .next t ∧ (t.port p).link = true ∧ (t.port p).gig = true
      ∧ (t.port p).ring = true ∧ (t.port p).interlink = false ∧ (2, p.val) ∉ t.causes ∧ t.port (1 - p.val) = s.port (1 - p.val)
      ∧ t = { s with net := { s.net with ports := t.net.ports }, causes := t.causes, sys := t.sys, rec_ := t.rec_ })
    ∧ (s.phys = true → (s.port p).link = false → ∃ t, exec (.linkUp p false m x pol) s = .next t ∧ (t.port p).link = true ∧ (t.port p).ring = false
      ∧ (t.port p).interlink = true ∧ (t.port p).master = false ∧ (2, p.val) ∈ t.causes ∧ t.port (1 - p.val) = s.port (1 - p.val))
    ∧ (s.phys = true → (s.port p).link = true → ∃ t, exec (.linkDown p) s = .next t ∧ (t.port p).link = false ∧ (t.port p).ct = (s.port p).ct
      ∧ (2, p.val) ∈ t.causes ∧ t.port (1 - p.val) = s.port (1 - p.val) ∧ ((s.port p).interlink = true → t.net.proxy = none))
    ∧ (s.phys = true → (s.port p).ring = true → ∃ t, exec (.hsrRingOpen p) s = .next t ∧ (2, p.val) ∈ t.causes
      ∧ t = { s with causes := t.causes, sys := t.sys, rec_ := t.rec_ })
    ∧ (s.phys = true → (s.port p).link = false → s.inReset 0x11 = false →
      (s.sys.mode = 4 ∨ (∃ y, (s.port p).testAt = some y ∧ y + 60000 ≤ s.tick)
        ∨ ((s.port p).testAt = none ∧ ∀ y, (s.port p).downAt = some y → y + 1000 ≤ s.tick)) →
      ∃ t, exec (.cableTest p) s = .next t ∧ t.port p = { s.port p with busy := true, testAt := some s.tick }
      ∧ t.port (1 - p.val) = s.port (1 - p.val) ∧ t = { s with net := { s.net with ports := t.net.ports } })
    ∧ ((s.port p).busy = true → ∃ t, exec (.cableTestDone p ps) s = .next t
      ∧ t.port p = { s.port p with busy := false, ct := cableRecord s.tick p 1 ps }
      ∧ t.port (1 - p.val) = s.port (1 - p.val) ∧ t = { s with net := { s.net with ports := t.net.ports } })
    ∧ (s.opens 0x2408 = true → (s.port 0).link = false → (s.port 0).busy = false → ∃ t, exec (.netCtReq 1#32) s = .next t
      ∧ t.port 0 = { s.port 0 with busy := true } ∧ t.port 1 = s.port 1 ∧ t = { s with net := { s.net with ports := t.net.ports } })

/-- HSR (R291 to R293, R299, R300, R302, R311): a partner not heard within 4 000 ticks of the link leaves the ring, and a first tagged frame later
brings it back no more; supervision goes out on the ring ports every 2 s with
the node proxied, and a foreign one joins the node table and, from the link partner itself, names it; an over-long frame is counted, the limit being 6 bytes
higher with an HSR tag; a new frame of class 0 goes on at once, with the correction of a Gust's segment 0 raised by its time in the switch, one of another class
waits outside the unprotected windows, and BLACKOUT sheds class 3 and class 2 but for the manager stream (R485); a second copy in the same direction, a frame to this node alone and the module's own go no further; a
node on an interlink is proxied with a sequence number of its own. Log entry 56 holds the reading it rests on. -/
def Obligations.HsrRingTraffic : Prop :=
  ∀ (s : State) (p : Fin 2) (x src mac len us : Nat) (q : BitVec 16) (c : BitVec 2) (own pt g st near : Bool) (r : Option Passage) (f : Frame), s.net.ports.length = 2 →
    near = ((s.port p).upAt.all fun y => decide (s.tick < y + 4000)) →
    f = .forward (1 - p.val) q.toNat (r.map fun y => y.leaves (meanDelay (s.port p))) →
    ((s.port p).ring = true → (s.port p).hsr = false → (s.port p).upAt = some x → x + 4000 ≤ s.tick →
      ∃ t, exec (.hsrPartnerTimeout p) s = .next t ∧ (t.port p).ring = false ∧ (2, p.val) ∈ t.causes)
    ∧ (s.phys = true → s.inReset 0x11 = false → (∀ y, s.net.supAt = some y → y + 2000 ≤ s.tick) → exec .hsrSupervisionSend s = .next { s with
        net := { s.net with supAt := some s.tick, held := s.net.held ++ [Frame.held (.supervision 2 s.net.proxy)] } })
    ∧ (s.net.supAt = some x → s.tick < x + 2000 → exec .hsrSupervisionSend s = .next s)
    ∧ (s.phys = true → (s.port p).link = true → mac ≠ Config.mac → ∃ t, exec (.supervisionFrame p { mac := mac, partner := pt }) s = .next t
      ∧ (t.port p).hsr = ((s.port p).hsr || near) ∧ (t.port p).pmac = (if pt then mac else (s.port p).pmac)
      ∧ (t.port p).ring = (if near then (s.port p).gig else (s.port p).ring)
      ∧ t.net.nodes = hearNode mac s.tick s.net.nodes ∧ t = { s with net := { s.net with ports := t.net.ports, nodes := t.net.nodes } })
    ∧ (s.phys = true → (s.port p).link = true → (if (s.port p).interlink || !g then 1522 else 1528) < len →
      ∃ t, exec (.frameForward p src q c own len { us := us, passage := r, tagged := g, stream := st }) s = .next t
      ∧ (t.port p).discLong = min ((s.port p).discLong + 1) 0xFFFFFFFF ∧ t = { s with net := { s.net with ports := t.net.ports } })
    ∧ (s.phys = true → (s.port p).link = true → len ≤ 1522 → src = Config.mac →
      exec (.frameForward p src q c own len { us := us, passage := r, tagged := g, stream := st }) s = .next s)
    ∧ (s.phys = true → (s.port p).link = true → (s.port p).interlink = false → len ≤ (if g then 1528 else 1522) → src ≠ Config.mac → s.net.proxy ≠ some src →
      ∃ t, exec (.frameForward p src q c own len { us := us, passage := r, tagged := g, stream := st }) s = .next t ∧ ((src, q.toNat, 1 - p.val), s.tick) ∈ t.net.seen
        ∧ (t.port p).hsr = ((s.port p).hsr || (g && near))
        ∧ ((own = true ∨ ∃ y ∈ s.net.seen, y.1 = (src, q.toNat, 1 - p.val) ∧ s.tick < y.2 + 400) → t.net.out = s.net.out ∧ t.net.held = s.net.held)
        ∧ (own = false → (s.net.seen.all fun y => y.1 ≠ (src, q.toNat, 1 - p.val)) = true → (s.port (1 - p.val)).link = true →
          (s.port (1 - p.val)).interlink = false → (s.port (1 - p.val)).ring = true → s.inReset 0x11 = false →
          (c = 0 → t.net.out = s.net.out ++ [(q.toNat, f)])
          ∧ (c ≠ 0 → windowEnd us = none → (s.sys.mode = 11 → c ≠ 3 ∧ (c = 2 → st = true)) → t.net.out = s.net.out ∧ t.net.held = s.net.held ++
            [{ cls := c.toNat, len := len, port := 1 - p.val, frame := f, stream := st }])
          ∧ (c = 3 ∨ (c = 2 ∧ st = false) → s.sys.mode = 11 → t.net.out = s.net.out ∧ t.net.held = s.net.held)))
    ∧ (s.phys = true → (s.port p).link = true → (s.port p).interlink = true → len ≤ 1522 → src ≠ Config.mac → own = false →
      ∃ t, exec (.frameForward p src q c own len { us := us, passage := r, tagged := g, stream := st }) s = .next t ∧ t.net.proxy = some src
        ∧ t.net.proxySeq = (s.net.proxySeq + 1) % 65536)

/-- Time references (R302, R303): a lost reference and a regained one are reported, and void a trim gate measured by it (R447); pulses of PPS_IO and TICK_IO count within their limits and start the
count afresh outside them; a Sync goes on once through the transparent clock with the sequence number it came with, and the module's own no further
(R293), and an Announce of a first master is taken. A phase difference beyond 1 s
against a valid reference goes into UTC in one step with its event (R30), and a change of the selected master's currentUtcOffset too (R31; log entry
129). Log entry 57 holds the reading it rests on. The PTP ports (R302): one delay exchange per second and port, the mean over the last 8 (log entry
158); a master sends Sync every 125 ms and Announce every 1 s, of clockClass 248, on both ports (port 2) with one sequence number. The host writes DOM_TREF with its RSV bits zero, and only on a serving module (R495, R489). Log entry 62 holds the reading it rests on. -/
def Obligations.TimeReferences : Prop :=
  (∀ (s : State) (p : Fin 2) (dom : BitVec 8) (q : BitVec 16) (ds m us d src : Nat) (x : Passage) (u ofs ms : Int), s.master = true →
    (s.ref ≠ 0 → s.time.refValid = true → exec (.timeRefChange false) s = .next (raise 0x98 (s.ref - 1) 0 { s with
        time := { s.time with refValid := false, refCount := 0 }, rtc := if s.rtc.measSrc = s.ref then { s.rtc with gate := false } else s.rtc }))
    ∧ (s.ref ≠ 0 → s.time.refValid = false → refNeed s.ref ≤ s.time.refCount → exec (.timeRefChange true) s = .next (raise 0x98 (s.ref - 1) 1 { s with
        time := { s.time with refValid := true }, rtc := if s.rtc.measSrc = s.ref then { s.rtc with gate := false } else s.rtc }))
    ∧ (s.ticking = true → s.ref = 2 → exec (.ppsIoInputPulse us 0) s = .next { s with
        time := { s.time with refCount := if 999900 ≤ us ∧ us ≤ 1000100 then s.time.refCount + 1 else 0 } })
    ∧ (s.ticking = true → s.ref = 2 → s.time.refValid = true → s.time.offTick ≠ some s.tick → 1000 < ms.natAbs →
      ∃ t, exec (.ppsIoInputPulse us ms) s = .next t ∧ t.time.offset = s.time.offset + ms ∧ t.time.off.applied = tc 64 (s.time.offset + ms)
        ∧ t.time.off.held = s.time.off.held ∧ t.tick = s.tick ∧ t = { s with time := t.time, rec_ := t.rec_ })
    ∧ (s.ticking = true → s.ref = 3 → exec (.tickIoInputPulse us) s = .next { s with
        time := { s.time with refCount := if 995000 ≤ us ∧ us ≤ 1005000 then s.time.refCount + 1 else 0 } })
    ∧ (s.ticking = true → (s.port p).link = true → src ≠ Config.mac → (s.port (1 - p.val)).link = true → (s.port (1 - p.val)).ring = true →
      s.inReset 0x11 = false → s.ref ≠ 1 → (s.net.seen.any fun y => y.1 = (src, q.toNat, 1 - p.val) && s.tick < y.2 + 400) = false →
      ∀ c : Int, c = x.received + 65536 * (x.ns + (meanDelay (s.port p) : Nat)) → ∃ t, exec (.ptpSyncReceive p { src := src, seq := q, pass := x } dom m ofs) s = .next t
        ∧ t = { s with net := { s.net with correction := c, out := s.net.out ++ [(q.toNat, .forward (1 - p.val) q.toNat (some c))], seen := t.net.seen } }
        ∧ ((src, q.toNat, 1 - p.val), s.tick) ∈ t.net.seen)
    ∧ (s.ticking = true → (s.port p).link = true → (s.net.seen.any fun y => y.1 = (src, q.toNat, 1 - p.val) && s.tick < y.2 + 400) = true →
      (s.net.seen.any fun y => y.1 = (src, q.toNat, 2) && s.tick < y.2 + 400) = true → exec (.ptpSyncReceive p { src := src, seq := q, pass := x } dom m ofs) s = .next s)
    ∧ (s.ticking = true → (s.port p).link = true → src = Config.mac → exec (.ptpSyncReceive p { src := src, seq := q, pass := x } dom m ofs) s = .next s)
    ∧ (s.ticking = true → (s.port p).link = true → s.ref = 1 → dom.toNat = s.ptpDomain → s.net.bestMaster = none →
      exec (.ptpAnnounceReceive p dom ds m u) s = .next { s with
        net := { s.net with bestMaster := some (ds, m), utcOffset := u, syncCount := 0 }, time := { s.time with refCount := 0 } })
    ∧ (s.ticking = true → (s.port p).link = true → s.ref = 1 → dom.toNat = s.ptpDomain → s.net.bestMaster = some (d, m) → s.time.refValid = true →
      ∃ t, exec (.ptpAnnounceReceive p dom ds m u) s = .next t ∧ t.net = { s.net with bestMaster := some (ds, m), utcOffset := u }
        ∧ t.time.offset = s.time.offset + 1000 * (s.net.utcOffset - u) ∧ t.tick = s.tick ∧ t = { s with net := t.net, time := t.time }))
  ∧ (∀ (s : State) (p : Fin 2) (d : Nat) (v : Word),
    (s.net.ports.length = 2 → s.ticking = true → (s.port p).link = true → s.inReset 0x11 = false →
      (∀ y, (s.port p).pdelayAt = some y → y + 1000 ≤ s.tick) → ∃ t, exec (.pdelayExchange p d) s = .next t
      ∧ (t.port p).pdelayAt = some s.tick ∧ (t.port p).delays = (d :: (s.port p).delays).take 8 ∧ t.net.out = s.net.out ++ [(s.net.seq, .pdelayReq p)]
      ∧ t = { s with net := { s.net with ports := t.net.ports, out := t.net.out, seq := (s.net.seq + 1) % 65536 } })
    ∧ (∀ y, (s.port p).pdelayAt = some y → s.tick < y + 1000 → exec (.pdelayExchange p d) s = .next s)
    ∧ (s.ticking = true → s.master = true → s.ptpMaster = true → s.inReset 0x11 = false →
      ((∀ y, s.net.syncAt = some y → y + 125 ≤ s.tick) → exec (.ptpMasterSend false) s = .next { s with
        net := { s.net with syncAt := some s.tick, out := s.net.out ++ [(s.net.seq, .ptpSync 2 0)], seq := (s.net.seq + 1) % 65536 } })
      ∧ ((∀ y, s.net.announceAt = some y → y + 1000 ≤ s.tick) → exec (.ptpMasterSend true) s = .next { s with
        net := { s.net with announceAt := some s.tick, seq := (s.net.seq + 1) % 65536
                            out := s.net.out ++ [(s.net.seq, .ptpAnnounce 2 (s.time.tref.toNat / 2 ^ 24) (s.time.tref.toNat / 2 ^ 16 % 256) s.ptpDomain 248)] } }))
    ∧ (s.opens 0x2810 = true → s.master = true → exec (.domTrefWrite v) s = .next { s with
        time := { s.time with trefNext := some (v &&& 0xFFFF7F07#32) } })
    ∧ (s.opens 0x2810 = true → s.master = false → exec (.domTrefWrite v) s = .next (violate 4 true false 0x2810 s)))

/-! Ring commands (11). -/

/-- Operator commands travel in the Gust (R51, R338): a sound ACK, SILENCE, SHELVE, UNSHELVE, OOS_SET, OOS_CLEAR or DUTY_SELECT for
a device of the domain joins the schedule with its ring entry, for the tick named or the earliest, and the journal of a domain's manager
names it (R275). Log entries 29 and 124 hold the readings it rests on. -/
def Obligations.GustCommands : Prop :=
  ∀ (s : State) (c : Cmd) (i : Instr) (op : Nat),
    (i, op) ∈ [(Instr.ack c, 0x20), (Instr.silence c, 0x21), (Instr.shelve c, 0x22), (Instr.unshelve c, 0x23), (Instr.oosSet c, 0x24),
      (Instr.oosClear c, 0x25), (Instr.dutySelect c, 0x26)] →
    Brings op c s → s.schedsFull = false →
    ((gustInput c s).targetDev = 0xFF ∨ op = 0x26 ∨ (gustInput c s).targetDev = s.dom.dev ∨ s.isAdmitted (gustInput c s).targetDev = true) →
    ∃ t y, exec i s = .next t ∧ t = { s with hif := t.hif, dec := t.dec, work := t.work, dom := { s.dom with cmds := t.dom.cmds } }
      ∧ t.dec.scheds = s.dec.scheds ++ [y] ∧ t.dec = { s.dec with scheds := t.dec.scheds, ordNext := s.dec.ordNext + 1 }
      ∧ y.ring = some (c.ring.val, (s.ring c.ring).cidx) ∧ y.input = gustInput c s ∧ y.apply = max c.apply.toNat s.earliest
      ∧ y.late = (c.apply.toNat ≠ 0 && c.apply.toNat < s.earliest) ∧ (t.ring c.ring).cidx = ((s.ring c.ring).cidx + 1) % 2 ^ 32
      ∧ (s.domain = true → (s.dom.cmds.any fun x => x.ring = c.ring && x.index = (s.ring c.ring).cidx) = false →
        ∃ e, t.dom.cmds = s.dom.cmds ++ [e] ∧ e.tag = c.tag.toNat ∧ e.op = c.op.toNat ∧ e.dev = c.dev.toNat ∧ e.gust = true)

/-- Commands of the domain and the configuration that start at once (R340): NOP and STATUS_GET complete OK or LATE; MODE_REQ waits for the
Lull; CFG_STAGE stages an image that passes, and for one that does not leaves none staged and gives the check it fails; CFG_COMMIT and
CFG_ABORT change the pending commit (R388, R392); IMG_STAGE takes an accepted image and rejects one whose signature does not verify;
IMG_ACTIVATE changes the option block, its older copy first and the other once that is verified (R470), and resets; EVT_REREAD and REC_PULL end in one completion, or an EVT_REREAD waits for room. What goes on
stands in a domain manager's journal (R275). What flash does not take is not held (R376). Log entries 10, 74, 76, 82, 93, 124 and 147 hold the
readings it rests on. -/
def Obligations.ModuleCommands : Prop :=
  ∀ (s : State) (c : Cmd) (p : Pend),
    (Brings 0x01 c s → c.dev.toNat = s.dom.dev → ∃ t, exec (.nop c) s = .next t
      ∧ t.dom.cmds = s.dom.cmds ++ [outcome c s (okLate (jobOf c s).late) s.tick 0 0]
      ∧ t = { s with hif := t.hif, dom := { s.dom with cmds := t.dom.cmds } })
    ∧ (Brings 0x02 c s → StartsHere c s → modeForAll c s = false → s.time.phase < 3 → ∃ t, exec (.modeReq c) s = .next t
      ∧ t.hif.jobs = s.hif.jobs ++ [jobOf c s] ∧ t = { s with hif := t.hif, rec_ := t.rec_, dom := { s.dom with cmds := s.dom.cmds ++ noted c s } })
    ∧ (Brings 0x03 c s → StartsHere c s → ∃ t, exec (.statusGet c) s = .next t
      ∧ t.dom.cmds = s.dom.cmds ++ [outcome c s (okLate (jobOf c s).late) s.tick 0 0]
      ∧ t = { s with hif := t.hif, dom := { s.dom with cmds := t.dom.cmds }, mem := { s.mem with chans := t.mem.chans } })
    ∧ (Brings 0x10 c s → StartsHere c s → (s.sys.mode ∈ [7, 8, 9, 10, 12] ∨ (s.refusedIsland = true ∧ s.sys.mode ≠ 11)) → s.commitPending = false →
      (imageFault s.stageCtx c.buf c.arg1.toNat = none →
        ∃ t, exec (.cfgStage c) s = .next t ∧ t.cfg = { s.cfg with staged := some (parseImage c.buf), slots := t.cfg.slots }
        ∧ (∀ k, t.cfg.slots.getD k none = ((s.cfg.slots.set 2 (some (parseImage c.buf))).set 3 (some (parseImage c.buf))).getD k none
          ∨ (t.cfg.slots.getD k none = none ∧ (k = 2 ∨ k = 3)))
        ∧ (s.programsOk (pagesOf c.buf.length) = true → t.cfg.slots.getD 2 none = (s.cfg.slots.set 2 (some (parseImage c.buf))).getD 2 none)
        ∧ t.dom.cmds = s.dom.cmds ++ [outcome c s (okLate (jobOf c s).late) s.tick (parseImage c.buf).seq ((parseImage c.buf).id / 2 ^ 32)]
        ∧ ((s.chan 13).busy = false → c.buf ≠ [] → (t.chan 13).state = 5 ∧ (t.chan 13).done = 4096 * pagesOf c.buf.length)
        ∧ State.programs { s with hif := t.hif, dom := { s.dom with cmds := t.dom.cmds }, cfg := t.cfg } t)
      ∧ ∀ ty code idx, imageFault s.stageCtx c.buf c.arg1.toNat = some (ty, code, idx) →
        ∃ t, exec (.cfgStage c) s = .next t ∧ t.cfg = { s.cfg with staged := none, slots := (s.cfg.slots.set 2 none).set 3 none }
        ∧ t.dom.cmds = s.dom.cmds ++ [outcome c s (if code = 0x47 then 7 else 2) s.tick ty idx code]
        ∧ t = { s with hif := t.hif, dom := { s.dom with cmds := t.dom.cmds }, cfg := t.cfg, mem := { s.mem with chans := t.mem.chans } })
    ∧ (Brings 0x11 c s → commitMode s.sys.mode = true → commitFault (c.arg1.toNat + 2 ^ 32 * c.arg2.toNat) s = none →
      ∃ t q, exec (.cfgCommit c) s = .next t ∧ t.dom.pend = some q ∧ q.id = c.arg1.toNat + 2 ^ 32 * c.arg2.toNat
        ∧ q.apply = max c.apply.toNat (s.tick + 32) ∧ q.announced = false ∧ q.cancel = none
        ∧ t = { s with hif := t.hif, dom := { s.dom with pend := t.dom.pend, cmds := s.dom.cmds ++ noted c s } })
    ∧ (Brings 0x12 c s → s.dom.pend = some p → p.id = c.arg1.toNat + 2 ^ 32 * c.arg2.toNat → p.cancel = none → commitMode s.sys.mode = true →
      s.tick + 20 ≤ p.apply → ∃ t, exec (.cfgAbort c) s = .next t
        ∧ t.dom.pend = some { p with cancel := some {
            origin := some (c.ring.val, (s.ring c.ring).cidx), tag := c.tag.toNat, at_ := s.tick
            from_ := if s.time.phase < 3 then s.tick else s.tick + 1, late := (jobOf c s).late } }
        ∧ t = { s with hif := t.hif, dom := { s.dom with pend := t.dom.pend, cmds := s.dom.cmds ++ noted c s } })
    ∧ (Brings 0x70 c s → StartsHere c s → buryarOk c.buf (c.arg1.toNat % 2) c.arg2.toNat = true → (parseBuryar c.buf).hash = true →
      ((parseBuryar c.buf).accepted = true → ∃ t x y, exec (.imgStage c) s = .next t
        ∧ x = { parseBuryar c.buf with hash := s.programsOk (pagesOf c.buf.length) } ∧ (y = parseBuryar c.buf ∨ y = { parseBuryar c.buf with hash := false })
        ∧ (c.arg1.toNat % 2 = 0 → t.mem.images = s.mem.images.set (freeSlot s) x)
        ∧ (c.arg1.toNat % 2 = 1 → t.mem.images = (s.mem.images.set 3 x).set 2 y)
        ∧ State.programs { s with hif := t.hif, dom := { s.dom with cmds := t.dom.cmds }, mem := { s.mem with images := t.mem.images } } t)
      ∧ ((parseBuryar c.buf).sig = false → ∃ t, exec (.imgStage c) s = .next t ∧ t.dom.cmds = s.dom.cmds ++ [outcome c s 2 s.tick 0 0 0x05]
        ∧ t = { s with hif := t.hif, dom := { s.dom with cmds := t.dom.cmds }, mem := { s.mem with chans := t.mem.chans } }))
    ∧ (Brings 0x71 c s → StartsHere c s → (s.sys.mode = 7 ∨ s.sys.mode = 12) → (s.mem.image (c.arg1.toNat % 2)).accepted = true →
      (∃ u, s.mem.ucCopy = some u ∧ listed (s.mem.image (c.arg1.toNat % 2)) (s.mem.image (2 + u)) = true) →
      ∃ t q, exec (.imgActivate c) s = .next t ∧ t.sys.resetDue = some 4 ∧ t.sys.recoveryOnce = false
        ∧ q = encOpt optMagic { s.mem.stored with prefB := decide (c.arg1.toNat % 2 = 1), seq := (s.mem.newestOpt.map (·.seq)).getD 0 + 1 }
        ∧ (s.programsOk 1 = true → ∃ x, (x = q ∨ x = []) ∧ t.mem.opts = (s.mem.opts.set s.mem.olderOpt q).set (1 - s.mem.olderOpt) x)
        ∧ (s.programsOk 1 = false → t.mem.opts = s.mem.opts.set s.mem.olderOpt [])
        ∧ State.programs { s with hif := t.hif, dom := { s.dom with cmds := t.dom.cmds }, mem := { s.mem with opts := t.mem.opts } } t)
    ∧ (Brings 0x61 c s → StartsHere c s → ∃ t, exec (.evtReread c) s = .next t
        ∧ ((∃ e, t.dom.cmds = s.dom.cmds ++ [e] ∧ e.op = 0x61 ∧ (e.status ≤ 1 ∨ e.status = 8))
          ∨ (t.dom.cmds = s.dom.cmds ++ noted c s ∧ ∃ x ∈ t.hif.rereads, x.job = jobOf c s ∧ (x.status ≤ 1 ∨ x.status = 8)))
        ∧ t = { s with hif := t.hif, dom := { s.dom with cmds := t.dom.cmds }, mem := t.mem, rec_ := t.rec_, free := s.free + 1 }
        ∧ ((∀ v ∈ s.mem.store, Config.entryBad s.free v.seq = false) → t.rec_ = s.rec_ ∧ t.mem = { s.mem with chans := t.mem.chans }))
    ∧ (Brings 0x60 c s → StartsHere c s → s.sys.mode ≠ 11 → (∃ b0, s.rec_.blocks.getLast? = some b0 ∧ b0.tick ≤ (jobOf c s).first) → ∃ t, exec (.recPull c) s = .next t
        ∧ (∃ e, t.dom.cmds = s.dom.cmds ++ [e] ∧ e.op = 0x60 ∧ (e.status ≤ 1 ∨ e.status = 5))
        ∧ t = { s with hif := t.hif, dom := { s.dom with cmds := t.dom.cmds }, mem := { s.mem with chans := t.mem.chans } })

/-- Commands of the field side, the panels and the blocks that start at once (R88, R89, R90, R274, R340, R409, R430, R465): each takes its place as
the running job; a survey opens what its pins carry in the next Lull and a lamp test starts at the next edge (R17); a command whose block is in
reset ends ABORTED (R465). A PANEL_UPDATE takes channel 14 (R357), which with no other channel busy is all it moves.
Log entries 80, 81, 134 and 137 hold the readings it rests on. -/
def Obligations.UnitCommands : Prop :=
  ∀ (s : State) (c : Cmd) (i : Fin 2) (k : Ckpt) (d : Dom) (m : BitVec 64), m = BitVec.ofNat 64 (c.arg1.toNat + 2 ^ 32 * c.arg2.toNat) → c.arg1.toNat % 2 = i.val → s.panels.length = 2 → d = { s.dom with cmds := s.dom.cmds ++ noted c s } →
    (Brings 0x30 c s → StartsHere c s → s.sys.mode = 7 → s.inReset 0x14 = false → s.field.survey = none → s.field.lead = none → s.field.surveyEnd = none →
      ∃ t, exec (.survey c) s = .next t ∧ t = { s with hif := t.hif, dom := d, field := t.field }
        ∧ t.field = { s.field with survey := some (jobOf c s), survNext := some m })
    ∧ (∀ f op b, (f, op, b) ∈ [(Instr.survey, 0x30, 0x14), (Instr.leadMeasure, 0x31, 0x14), (Instr.panelUpdate, 0x40, 0x12), (Instr.panelClear, 0x41, 0x12),
        (Instr.lampTest, 0x42, 0x13)] → Brings op c s → StartsHere c s → s.inReset b = true →
      ∃ t, exec (f c) s = .next t ∧ t.dom.cmds = s.dom.cmds ++ [outcome c s 5 s.tick 0 0]
        ∧ t = { s with hif := t.hif, dom := { s.dom with cmds := t.dom.cmds } })
    ∧ (Brings 0x31 c s → StartsHere c s → s.sys.mode = 7 → s.inReset 0x14 = false → s.field.survey = none → s.field.lead = none → s.field.surveyEnd = none →
      (s.field.route.cellR (c.arg1.toNat % 64)).pPin ≠ 0xFF → (s.field.route.cellR (c.arg1.toNat % 64)).excSrc ≠ 0xFF →
      ∃ t, exec (.leadMeasure c) s = .next t ∧ t = { s with hif := t.hif, dom := d, field := { s.field with lead := some (jobOf c s), leadV := [], leadOpen := false } })
    ∧ (Brings 0x40 c s → StartsHere c s → s.inReset 0x12 = false → (s.cfg.e.panelSet i).present = true → (s.cfg.e.panelSet i).builtin = false → panelMode s.sys.mode i = true →
      regionOk (s.cfg.e.panelSet i) (jobOf c s).region = true → (s.panel i).pendHost = none →
      ∃ t, exec (.panelUpdate c) s = .next t ∧ t.panel i = { s.panel i with
          pendHost := some ((jobOf c s).region, c.buf.take ((jobOf c s).region.w * (jobOf c s).region.h / 2)) }
        ∧ t.panel (1 - i.val) = s.panel (1 - i.val)
        ∧ State.dmaOnly { s with panels := t.panels } t ∧ (s.onlyBusy 14 → (t.chan 14).busy = true ∧ (∀ n, n ≠ 14 → t.chan n = s.chan n)
          ∧ t = { s with hif := t.hif, dom := d, panels := t.panels, mem := { s.mem with chans := t.mem.chans, turn := t.mem.turn } }))
    ∧ (Brings 0x41 c s → StartsHere c s → s.inReset 0x12 = false → (s.cfg.e.panelSet i).present = true → panelMode s.sys.mode i = true →
      ((s.panel i).pendClear.bind (·.job)).isSome = false →
      ∃ t, exec (.panelClear c) s = .next t ∧ t.panel i = { s.panel i with pendClear := some (wholeOp (s.cfg.e.panelSet i) 1 0 true (some (jobOf c s))) }
        ∧ t.panel (1 - i.val) = s.panel (1 - i.val) ∧ t = { s with hif := t.hif, dom := d, panels := t.panels })
    ∧ (Brings 0x42 c s → StartsHere c s → 7 ≤ s.sys.mode → s.sys.mode ≤ 11 → s.inReset 0x13 = false → ∃ t, exec (.lampTest c) s = .next t
      ∧ t = { s with hif := t.hif, dom := d, field := { s.field with lampNew := s.field.lampNew ++ [jobOf c s] } })
    ∧ (Brings 0x80 c s → StartsHere c s → 8 ≤ s.sys.mode → s.sys.mode ≤ 11 → s.eng.audit = none → s.eng.other = 0 → s.rec_.ckpts.find? (·.ok) = some k →
      s.rec_.lost = [] → (s.rec_.blocks.any fun b => b.test && k.tick < b.tick + 992 && b.tick ≤ k.tick) = false →
      (s.rec_.ckpts.any fun x => x.ok && x.tick + 992 = k.tick) = true →
      ∃ t, exec (.auditNow c) s = .next t ∧ t.eng.other = 3 ∧ t.eng.audit = some { b := !s.eng.dutyB, k := k.tick, job := some (jobOf c s) }
        ∧ t = { s with hif := t.hif, dom := d, eng := t.eng })
    ∧ (Brings 0x81 c s → StartsHere c s → blockPermitted (c.arg1.toNat % 256) s = true → s.blockRunning = false → 0x10 ≤ c.arg1.toNat % 256 →
      ∃ t, exec (.blockReset c) s = .next t ∧ t = { s with hif := t.hif, dom := d, sys := { s.sys with
        blkCode := c.arg1.toNat % 256, blkState := 1, blkForced := false, blkJob := some (jobOf c s) } })

/-- DMA commands that start at once (R360 to R362): DMA_START takes a sound transfer on an idle channel, DMA_PAUSE drains a running one, and
DMA_RESUME lets a paused one run again. Other channels go on as they are granted; with no other busy only this one moves.
Log entries 79, 86 and 164 hold the readings it rests on. -/
def Obligations.DmaCommands : Prop :=
  ∀ (s : State) (c : Cmd) (k : Nat) (data : List Byte) (wr : Nat) (d : Dom), k = c.arg1.toNat % 16 → StartsHere c s →
    d = { s.dom with cmds := s.dom.cmds ++ noted c s } →
    (Brings 0x50 c s → s.sys.mode ≠ 11 → descCrcOk c.buf = true → descRsv c.buf = false → u32 c.buf 16 ≠ 0 → s.inReset 0x10 = false →
      windowOk false (u64 c.buf 0) (u32 c.buf 16) s = true → windowOk true (u64 c.buf 8) (u32 c.buf 16) s = true →
      adrLost (u64 c.buf 0) s = false → adrLost (u64 c.buf 8) s = false → (s.chan k).busy = false →
      ∃ t, exec (.dmaStart c) s = .next t ∧ (t.chan k).src.applied = u64 c.buf 0 ∧ (t.chan k).dst.applied = u64 c.buf 8
        ∧ (t.chan k).len = u32 c.buf 16 ∧ (t.chan k).done = 0 ∧ (t.chan k).job = some (jobOf c s) ∧ (t.chan k).busy = true ∧ s.dmaOnly t
        ∧ (s.onlyBusy k → (∀ n, n ≠ k → t.chan n = s.chan n) ∧ t = { s with hif := t.hif, net := t.net, dom := d, mem := { s.mem with chans := t.mem.chans, turn := t.mem.turn } }))
    ∧ (Brings 0x51 c s → ((s.chan k).state = 1 ∨ (s.chan k).state = 2) → (s.chan k).failing = 0 → ∃ t, exec (.dmaPause c data wr) s = .next t
      ∧ (t.chan k).state = 3 ∧ (t.chan k).pause = true ∧ (t.chan k).pauser = some (jobOf c s) ∧ s.dmaOnly t
      ∧ (s.onlyBusy k → (∀ n, n ≠ k → t.chan n = s.chan n)
        ∧ t = { s with hif := t.hif, net := t.net, dom := d, mem := { s.mem with chans := t.mem.chans, turn := t.mem.turn, dram := t.mem.dram } }))
    ∧ (Brings 0x52 c s → (s.chan k).state = 4 → ∃ t, exec (.dmaResume c) s = .next t ∧ (t.chan k).state ≠ 4 ∧ (t.chan k).pause = false
      ∧ t.dom.cmds.getLast? = some (outcome c s (okLate (jobOf c s).late) s.tick 0 0) ∧ s.dmaOnly t
      ∧ ((s.chan k).buf = [] → (s.chan k).feed = [] → (t.chan k).state = 1 ∨ (t.chan k).state = 2)
      ∧ (s.onlyBusy k → (s.chan k).buf = [] → (s.chan k).feed = [] → (s.chan k).pauser = none → (∀ n, n ≠ k → t.chan n = s.chan n)
        ∧ t = { s with hif := t.hif, net := t.net, dom := { s.dom with cmds := t.dom.cmds }, mem := { s.mem with chans := t.mem.chans, turn := t.mem.turn } }))

/-- Command and completion frames (R306, R307, R309, R339): the next CSEQ is taken while the queue of 16 has room, its credit returned and its
completion sent, REJECTED with its DETAIL when a descriptor check fails; a command with a later apply tick waits, its credit held; a repeat has
its completion sent again; the serving module ends the flight a completion names, that of a refused module told by its TAG and OPCODE (R317), but reads its
result first by channel 12 (R365); it repeats one uncovered for 100 ticks and ends one with nothing 1 000 ticks after its cover. Log entries 73 and 137 hold the readings it rests on. -/
def Obligations.CommandFrames : Prop :=
  ∀ (s : State) (h : Hdr) (q : BitVec 8) (c : Cmd) (x : Compl) (d : Fin 64) (f : Flight) (r i n : Nat),
    (s.takes h 3 1 = true → s.dom.serving = false → h.dst = s.dom.dev → s.dom.admitted = true → s.sys.mode ≠ 5 →
      (s.dom.cseqNext = q.toNat → s.queueRoom = false → exec (.commandFrame h q c) s = .next (s.from h))
      ∧ (s.dom.cseqNext = q.toNat → s.queueRoom = true → c.op ∉ [0x01, 0x02, 0x11, 0x12] → s.tick < c.apply.toNat → frameFault h.rsv c s = 0 →
        exec (.commandFrame h q c) s = .next { s.from h with
          dom := { (s.from h).dom with cseqNext := (q.toNat + 1) % 256 }
          hif := { s.hif with jobs := s.hif.jobs ++ [{ cmd := c, origin := .frame q.toNat, start := c.apply.toNat, decoded := s.tick }] } })
      ∧ (s.dom.cseqNext = q.toNat → s.queueRoom = true → 16 ≤ (s.dom.creditRet + 256 - q.toNat) % 256 → c.op = 0x01 → s.inReset 0x11 = false →
        ∃ t y, exec (.commandFrame h q c) s = .next t ∧ t.dom.cseqNext = (q.toNat + 1) % 256
        ∧ t.dom.creditRet = q.toNat ∧ t.dom.doneFrames = ((q.toNat, y) :: s.dom.doneFrames).take 16
        ∧ y.tag = c.tag.toNat ∧ y.op = 0x01 ∧ y.dev = c.dev.toNat ∧ y.detail = frameFault h.rsv c s
        ∧ y.status = (if frameFault h.rsv c s = 0 then okLate (c.apply ≠ 0 && c.apply.toNat < s.tick) else 2)
        ∧ (h.rsv ≠ 0 → frameFault h.rsv c s ≠ 0)
        ∧ t = { s with dom := { (s.from h).dom with cseqNext := t.dom.cseqNext, creditRet := t.dom.creditRet, doneFrames := t.dom.doneFrames }
                       net := { (s.from h).net with held := s.net.held ++ [(Frame.completion q.toNat y).held] } })
      ∧ (s.dom.cseqNext < 256 → 1 ≤ (s.dom.cseqNext + 256 - q.toNat) % 256 → (s.dom.cseqNext + 256 - q.toNat) % 256 ≤ 16 →
        (s.dom.doneFrames.find? fun y => y.1 = q.toNat) = some (n, x) → s.inReset 0x11 = false →
        exec (.commandFrame h q c) s = .next { s.from h with net := { (s.from h).net with held := s.net.held ++ [(Frame.completion q.toNat x).held] } }))
    ∧ (s.takes h 4 1 = true → s.dom.serving = true → ∀ e : Nat, e = (s.from h).srcOf h →
      (((s.from h).peer e).flights.find? fun y => y.cseq = q.toNat && (h.src < 64 || (y.cmd.tag.toNat = x.tag && y.cmd.op.toNat = x.op))) = some f →
      (resultLen x = 0 → f.origin = .ring r i → ∃ t o, exec (.completionFrame h q x) s = .next t
        ∧ (t.peer e).flights = ((s.from h).peer e).flights.erase f ∧ t.dom.cmds = s.dom.cmds ++ [o]
        ∧ o.status = x.status ∧ o.detail = x.detail ∧ o.tag = f.cmd.tag.toNat ∧ o.ring = r ∧ o.index = i ∧ o.used = x.used
        ∧ t = { s.from h with hif := t.hif, dom := { (s.from h).dom with peers := t.dom.peers, cmds := t.dom.cmds } })
      ∧ (resultLen x ≠ 0 → s.mem.fetches = [] → (∀ m, (s.chan m).busy = false) → ∃ t, exec (.completionFrame h q x) s = .next t
        ∧ (t.peer e).flights = ((s.from h).peer e).flights.erase f ∧ t.dom.cmds = s.dom.cmds
        ∧ t.mem.fetches = [{ dev := e, flight := f, compl := x }] ∧ (t.chan 12).busy = true ∧ (t.chan 12).len = resultLen x ∧ (s.from h).dmaOnly t))
    ∧ (s.dom.serving = true → ((s.peer d).flights.find? fun y => y.cseq = q.toNat && y.covered.isNone) = some f → f.sent + 100 ≤ s.tick → f.repeats < 3 →
      s.inReset 0x11 = false →
      ∃ t, exec (.commandResend d q) s = .next t ∧ t.net = { s.net with held := s.net.held ++ [(Frame.command d f.cseq f.cmd).held] }
        ∧ { f with sent := s.tick, repeats := f.repeats + 1 } ∈ (t.peer d).flights ∧ t = { s with dom := { s.dom with peers := t.dom.peers }, net := t.net })
    ∧ (s.dom.serving = true → ((s.peer d).flights.find? fun y => y.cseq = q.toNat) = some f → f.covered = some n → n + 1000 ≤ s.tick → f.origin = .ring r i →
      ∃ t e, exec (.commandCompletionTimeout d q) s = .next t ∧ (t.peer d).flights = (s.peer d).flights.erase f
        ∧ t.dom.cmds = s.dom.cmds ++ [e] ∧ e.status = 5 ∧ e.tag = f.cmd.tag.toNat
        ∧ t = { s with hif := t.hif, dom := { s.dom with peers := t.dom.peers, cmds := t.dom.cmds } })

/-! Rings (11). -/

/-- Ring set-up (R325 to R328, R490): a write with ENABLE on a ring that is not refused enables it with its indices at zero, a refused one sets
CFG_ERR, and on an enabled ring other fields are locked; a write without ENABLE stores the fields, or stops an enabled ring.
Log entry 68 holds the reading it rests on. -/
def Obligations.RingSetup : Prop :=
  ∀ (s : State) (n : Fin 64) (v : Word), s.opens (ringOff n + 8) = true →
    (v.getLsbD 31 = true → (s.ring n).enable = false → ringRefused n ((s.ring n).cfg n v) s = false → ∃ t, exec (.ringEnable n v) s = .next t
      ∧ (t.ring n).enable = true ∧ (t.ring n).active = s.master ∧ (t.ring n).pidx = 0 ∧ (t.ring n).cidx = 0 ∧ (t.ring n).cfgErr = false
      ∧ (∀ m ≠ n.val, t.ring m = s.ring m) ∧ t = { s with hif := { s.hif with rings := t.hif.rings, heldBack := t.hif.heldBack } })
    ∧ (v.getLsbD 31 = true → (s.ring n).enable = false → ringRefused n ((s.ring n).cfg n v) s = true → ∃ t, exec (.ringEnable n v) s = .next t
      ∧ (t.ring n).enable = false ∧ (t.ring n).cfgErr = true ∧ (∀ m ≠ n.val, t.ring m = s.ring m)
      ∧ t = { s with hif := { s.hif with rings := t.hif.rings } })
    ∧ (v.getLsbD 31 = true → (s.ring n).enable = true → (s.ring n).cfg n v ≠ s.ring n →
      exec (.ringEnable n v) s = .next (violate 3 true false (ringOff n + 8) s))
    ∧ (v.getLsbD 31 = false → (s.ring n).enable = false → ∃ t, exec (.ringDisable n v) s = .next t ∧ (t.ring n).enable = false
      ∧ (t.ring n).vector = v.toNat / 65536 % 64 ∧ (t.ring n).log2 = v.toNat / 256 % 32 ∧ (∀ m ≠ n.val, t.ring m = s.ring m)
      ∧ t = { s with hif := { s.hif with rings := t.hif.rings } })
    ∧ (v.getLsbD 31 = false → (s.ring n).enable = true → n.val ∉ s.hif.heldBack → ∃ t, exec (.ringDisable n v) s = .next t ∧ (t.ring n).enable = false
      ∧ (t.ring n).active = false ∧ (t.ring n).waitC = [] ∧ (t.ring n).waitE = [] ∧ t.rtc = s.rtc ∧ t.field = s.field ∧ t.dec = s.dec
      ∧ (s.hif.rereads = [] → ∀ x ∈ t.hif.arisen, x.1 ≠ n.val))

/-- Doorbells and messages (R324, R329, R334): an index within the ring is taken; the upper word, a disabled ring and an index outside it are
violations of case 5; a due ring sends its message, or sets its pending bit while the vector or the function is masked, and counts afresh; while MSI-X is off nothing is sent and the entries stay unsignalled. A reset of HIF
disables every ring, and with PE_PERST_N low keeps HIF in reset until its release (R322, R462).
Log entries 69 and 70 hold the readings it rests on. -/
def Obligations.DoorbellsAndReset : Prop :=
  ∀ (s : State) (n : Fin 64) (x : Word) (q : Ring),
    (s.path = true → exec (.doorbell n true x) s = .next (violate 5 true true (8 * n + 4) s)
      ∧ ((s.ring n).enable = false → exec (.doorbell n false x) s = .next (violate 5 true true (8 * n) s))
      ∧ ((s.ring n).enable = true → (s.ring n).ring x.toNat = none → exec (.doorbell n false x) s = .next (violate 5 true true (8 * n) s))
      ∧ ((s.ring n).enable = true → (s.ring n).ring x.toNat = some q → q.type ≠ 3 → ∃ t, exec (.doorbell n false x) s = .next t
        ∧ t.ring n = q ∧ (∀ m ≠ n.val, t.ring m = s.ring m) ∧ t = { s with hif := { s.hif with rings := t.hif.rings } }))
    ∧ (s.hif.pci.msixOn = false → exec (.msixMessage n) s = .next s)
    ∧ ((s.ring n).due s.tick = true → s.hif.pci.msixOn = true → ∃ t, exec (.msixMessage n) s = .next t ∧ (t.ring n).unsig = 0 ∧ (t.ring n).firstAt = none
      ∧ (s.hif.pci.msixMask = false → s.hif.mask.getLsbD (s.ring n).vector = false →
        t.hif.msix = s.hif.msix ++ [(s.ring n).vector] ∧ t.hif.pba = s.hif.pba)
      ∧ ((s.hif.pci.msixMask = true ∨ s.hif.mask.getLsbD (s.ring n).vector = true) →
        t.hif.msix = s.hif.msix ∧ t.hif.pba = s.hif.pba ||| BitVec.ofNat 64 (2 ^ (s.ring n).vector))
      ∧ t = { s with hif := { s.hif with rings := t.hif.rings, msix := t.hif.msix, pba := t.hif.pba } })
    ∧ (s.hosted = true → 4 ≤ s.sys.mode → ∃ t, exec (.hifReset 0) s = .next t ∧ (∀ m : Fin 64, (t.ring m).enable = false)
      ∧ t.hif.released = false ∧ t.sys.perstHigh = false ∧ t.rtc = s.rtc ∧ t.field = s.field ∧ t.dec = s.dec)
    ∧ (s.hosted = true → 4 ≤ s.sys.mode → exec .pePerstNRelease s = .next { s with
        sys := { s.sys with perstHigh := true }, hif := { s.hif with released := true } })

/-- A completion and an event that wait are written when there is room (R331, R332, R343, R346): the descriptor at the ring's slot for its PIDX, with its
PHASE and CRC, then its index and the tick in the shadow, which an EVT ring's entries leave due before the tick ends; every byte of host memory outside the slot and the shadow reads as before. Log entry 11 holds the reading it rests on.
LOG rings (R353): a record goes to a live TYPE 4 ring with room, with its fields and the count of those dropped before it; a full ring drops it and
counts it, up to the 16 bits that carry the count. Log entry 131 says which records the control firmware writes. -/
def Obligations.RingWrites : Prop :=
  (∀ (s : State) (n : Fin 64) (c : Compl) (e : List Nat) (i : Instr) (ws : List Nat), (s.ring n).live = true → (s.ring n).room = true →
    ((i = .completionRelease n ∧ (s.ring n).type = 1 ∧ (s.ring n).waitC = [c] ∧ ws = complWords c)
      ∨ (i = .eventWriteResume n ∧ (s.ring n).type = 2 ∧ (s.ring n).waitE = [e] ∧ ws = e ∧ e.length = 7 ∧ s.hif.rereads = [])) →
    ∃ t slot, exec i s = .next t ∧ slot = (s.ring n).base.applied + 32 * ((s.ring n).pidx % (s.ring n).size)
      ∧ (t.ring n).pidx = ((s.ring n).pidx + 1) % 2 ^ 32 ∧ (t.ring n).waitC.length + (t.ring n).waitE.length + 1 = (s.ring n).waitC.length + (s.ring n).waitE.length
      ∧ (∀ m ≠ n.val, t.ring m = s.ring m) ∧ t = { s with hif := { s.hif with rings := t.hif.rings, mem := t.hif.mem } }
      ∧ (∀ a, (a < slot ∨ slot + 32 ≤ a) → (a < (s.ring n).shadow.applied ∨ (s.ring n).shadow.applied + 8 ≤ a) →
        tget 0 t.hif.mem a = tget 0 s.hif.mem a)
      ∧ ((s.ring n).shadow.applied + 8 ≤ slot ∨ slot + 32 ≤ (s.ring n).shadow.applied → ∀ k < 32,
        tget 0 t.hif.mem (slot + k) = (descBytes ws (if (s.ring n).pidx / (s.ring n).size % 2 = 0 then 2 ^ 31 else 0)).getD k 0)
      ∧ ((s.ring n).type = 1 → ∀ k < 8, tget 0 t.hif.mem ((s.ring n).shadow.applied + k)
        = (leBytes 4 (((s.ring n).pidx + 1) % 2 ^ 32) ++ leBytes 4 (s.tick % 2 ^ 32)).getD k 0)
      ∧ ((s.ring n).type = 2 → (t.ring n).wbDue = true))
  ∧ (∀ (s : State) (n : Fin 64) (src code : Nat) (data : List Nat) (ws : List Nat), (s.ring n).type = 4 → (s.ring n).live = true →
    ws = logWords s.dom.dev src code s.tick (s.ring n).dropped data →
    ws.length = 7 ∧ u8 (descBytes ws 0) 0 = src % 256 ∧ u8 (descBytes ws 0) 1 = s.dom.dev % 64 ∧ u16 (descBytes ws 0) 2 = code % 65536
    ∧ u32 (descBytes ws 0) 4 = s.tick % 2 ^ 32 ∧ u16 (descBytes ws 0) 8 = s.tick / 2 ^ 32 % 65536
    ∧ u16 (descBytes ws 0) 10 = (if (s.ring n).dropped = 0 then data.getD 0 0 else (s.ring n).dropped) % 65536
    ∧ ((s.ring n).room = true → ((postLog src code data s).ring n).dropped = 0
      ∧ ((postLog src code data s).ring n).pidx = ((s.ring n).pidx + 1) % 2 ^ 32
      ∧ ((∀ m : Fin 64, m ≠ n → (s.ring m).type ≠ 4) →
        ∀ k < 32, tget 0 (postLog src code data s).hif.mem ((s.ring n).base.applied + 32 * ((s.ring n).pidx % (s.ring n).size) + k)
          = (descBytes ws (if (s.ring n).pidx / (s.ring n).size % 2 = 0 then 2 ^ 31 else 0)).getD k 0))
    ∧ ((s.ring n).room = false → (postLog src code data s).ring n = { s.ring n with dropped := min ((s.ring n).dropped + 1) 65535 })
    ∧ (∀ m : Fin 64, (s.ring m).type ≠ 4 → (postLog src code data s).ring m = s.ring m)
    ∧ postLog src code data s = { s with hif := { s.hif with rings := (postLog src code data s).hif.rings, mem := (postLog src code data s).hif.mem } })

/-! DMA (12). -/

/-- DMA_CH_CTL (R358 to R364): START on an idle channel with a sound transfer runs it, and on a busy one is a violation; PAUSE drains, its clear
runs a paused channel again, ABORT ends it ABORTED (7) with its buffer dropped. Other channels go on as they are granted.
Log entries 84 and 86 hold the readings it rests on. -/
def Obligations.DmaControl : Prop :=
  ∀ (s : State) (c : Fin 16) (v : Word) (data : List Byte) (wr : Nat), c.val < 12 → s.opens (chanOff c) = true →
    (v.getLsbD 31 = true → v.getLsbD 30 = false → (s.chan c).busy = true → exec (.dmaChStart c v) s = .next (violate 3 true false (chanOff c) s))
    ∧ (v.getLsbD 31 = true → v.getLsbD 30 = false → (s.chan c).busy = false → s.inReset 0x10 = false → (s.chan c).len ≠ 0 → adrOk (s.chan c).src.applied = true →
      adrOk (s.chan c).dst.applied = true → transferOk (s.chan c) s = true → ∃ t, exec (.dmaChStart c v) s = .next t ∧ (t.chan c).busy = true
        ∧ (t.chan c).len = (s.chan c).len ∧ (t.chan c).done = 0 ∧ (t.chan c).job = none ∧ (t.chan c).prio = v.toNat / 16 % 4 ∧ s.dmaOnly t
        ∧ (s.onlyBusy c → (∀ n, n ≠ c.val → t.chan n = s.chan n) ∧ t = { s with net := t.net, mem := { s.mem with chans := t.mem.chans, turn := t.mem.turn } }))
    ∧ (v.getLsbD 30 = true → (s.chan c).busy = true → ∃ t, exec (.dmaChAbort c v data wr) s = .next t ∧ (t.chan c).state = 7
      ∧ (t.chan c).buf = [] ∧ (t.chan c).pause = false ∧ s.dmaOnly t)
    ∧ (v.getLsbD 29 = true → v.getLsbD 31 = false → v.getLsbD 30 = false → ((s.chan c).state = 1 ∨ (s.chan c).state = 2) → (s.chan c).failing = 0 →
      ∃ t, exec (.dmaChPauseSet c v data wr) s = .next t ∧ (t.chan c).state = 3 ∧ (t.chan c).pause = true ∧ s.dmaOnly t
        ∧ (s.onlyBusy c → (∀ n, n ≠ c.val → t.chan n = s.chan n)
          ∧ t = { s with hif := { s.hif with mem := t.hif.mem }, net := t.net, mem := { s.mem with chans := t.mem.chans, turn := t.mem.turn, dram := t.mem.dram } }))
    ∧ (v.getLsbD 29 = false → v.getLsbD 31 = false → v.getLsbD 30 = false → (s.chan c).state = 4 →
      ∃ t, exec (.dmaChPauseClear c v data wr) s = .next t ∧ (t.chan c).state ≠ 4 ∧ (t.chan c).pause = false ∧ s.dmaOnly t
        ∧ ((s.chan c).buf = [] → (s.chan c).feed = [] → (t.chan c).state = 1 ∨ (t.chan c).state = 2)
        ∧ (s.onlyBusy c → (s.chan c).buf = [] → (s.chan c).feed = [] → (s.chan c).pauser = none → (∀ n, n ≠ c.val → t.chan n = s.chan n)
          ∧ t = { s with net := t.net, mem := { s.mem with chans := t.mem.chans, turn := t.mem.turn } }))

/-- What ends a transfer (R359, R362, R364, R366, R367): the last byte written here ends it DONE (5), and bytes for another module leave it with their
acknowledgements; a drained channel that is granted, or holds nothing, is PAUSED (4) or DONE, a failed read ends it FAILED (6) with its ERR once its buffer is out; a
bulk request is sent again three times and then fails with ERR 3. With its image carried to a module the command goes after it.
Log entries 59, 86 and 137 hold the readings it rests on. -/
def Obligations.DmaEnds : Prop :=
  ∀ (s : State) (c : Fin 16) (data : List Byte) (err : Fin 3) (r : BulkReq) (h : Hdr) (b : Bulk) (x : Chan) (cm : Cmd) (o : Origin), x = s.chan c →
    (c.val = 13 → s.mem.loads = []) → (c.val = 12 → s.mem.fetches = []) →
    (x.state = 1 → x.fromRemote = false → x.feed = [] →
      (c.val < 12 → x.toRemote = false → data.length = x.unread → x.buf.length ≤ x.len →
        ∃ t, exec (.dmaTransferDone c data) s = .next t ∧ (t.chan c).state = 5 ∧ (t.chan c).len = 0 ∧ (t.chan c).buf = [] ∧ s.dmaOnly t)
      ∧ (c.val < 12 → x.toRemote = true → data.length = x.unread →
        ∃ t, exec (.dmaTransferDone c data) s = .next t ∧ (t.chan c).busy = true ∧ (t.chan c).len = x.len ∧ (t.chan c).done = x.done ∧ s.dmaOnly t)
      ∧ (12 ≤ c.val → ∃ t, exec (.dmaTransferDone c data) s = .next t ∧ (t.chan c).state = 5 ∧ (t.chan c).len = 0
        ∧ (t.chan c).done = x.done + x.len ∧ s.dmaOnly t))
    ∧ (x.state = 3 → (granted c s = true ∨ x.buf = []) → x.failing = 0 → (x.toRemote = false ∨ x.buf = []) → ∃ t, exec (.dmaDrainDone c) s = .next t
      ∧ (t.chan c).buf = [] ∧ (t.chan c).state = (if x.len ≤ x.buf.length then 5 else 4) ∧ s.dmaOnly t)
    ∧ (1 ≤ x.state → x.state ≤ 3 → data.length < x.unread → errFits x.src.applied (err.val + 1) = true →
      ∃ t, exec (.dmaReadFailure c data err) s = .next t ∧ s.dmaOnly t
      ∧ (x.buf = [] → (x.fromRemote = true ∨ data = []) → (t.chan c).state = 6 ∧ (t.chan c).err = err.val + 1)
      ∧ (x.toRemote = false → x.feed = [] → s.onlyBusy c → (t.chan c).state = 6 ∧ (t.chan c).err = err.val + 1 ∧ (t.chan c).buf = [])
      ∧ (x.toRemote = true → (x.buf ≠ [] ∨ (x.fromRemote = false ∧ data ≠ [])) → (t.chan c).busy = true ∧ (t.chan c).failing = err.val + 1))
    ∧ (x.bulk = some r → r.sent + 100 ≤ s.tick →
      (r.repeats < 3 → ∃ t, exec (.bulkRetry c) s = .next t ∧ (t.chan c).bulk = some { r with sent := s.tick, repeats := r.repeats + 1 }
        ∧ (s.sys.mode ≠ 11 → s.inReset 0x11 = false → t.net = { s.net with held := s.net.held ++ r.frames.map fun f => (Frame.bulk r.dev f).held })
        ∧ t = { s with net := t.net, mem := { s.mem with chans := t.mem.chans } })
      ∧ (3 ≤ r.repeats → ∃ t, exec (.bulkRetry c) s = .next t ∧ s.dmaOnly t
        ∧ ((r.isWrite = true ∨ (x.buf = [] ∧ x.feed = [])) → (t.chan c).state = 6 ∧ (t.chan c).err = 3)))
    ∧ (s.takes h 9 2 = true → b.chan = c.val → b.op = 4 → b.data.length ≤ 1024 → x.bulk = some r → r.isWrite = true → r.xid = b.xid → r.dev = (s.from h).srcOf h →
      b.rlen = r.len → 1 ≤ x.state → x.state ≤ 3 → x.toRemote = true → ∃ t, exec (.bulkFrame h b) s = .next t ∧ (s.from h).dmaOnly t
        ∧ (t.chan c).done = x.done + r.len ∧ (t.chan c).len = x.len - r.len ∧ (t.chan c).dst.applied = x.dst.applied + r.len
        ∧ (x.len ≤ r.len → (t.chan c).state = 5) ∧ (r.len < x.len → x.failing = 0 → (t.chan c).busy = true))
    ∧ (s.mem.loads = [(cm, o)] → s.isAdmitted cm.dev.toNat = true → (s.peer cm.dev.toNat).inFlight < 16 →
      s.dmaOnly (endLoad 5 0 s) ∧ (endLoad 5 0 s).mem.loads = []
        ∧ ∃ f ∈ ((endLoad 5 0 s).peer cm.dev.toNat).flights, f.cmd.op = cm.op ∧ f.cmd.buf = cm.buf ∧ f.origin = o)

/-! Registers (17). -/

/-- Register accesses (R320, R323, R324, R464, R480, R488 to R500): an access of either BAR that is not a naturally aligned 32-bit one, and
one to a reserved address, are violations of cases 1 and 2, and a refused read returns zero; any other read returns the register's value; a
read of the configuration space returns the endpoint's; the rows with an effect of their own have it. A permitted write (REGISTER_WRITE) at
an open window completes: it stores an RW register, clears what a W1C bit names, applies a pair at its second half (R8, R395, R499) and is
ignored by an RO or RSV register; a locked one, and one in a window the mode does not reach, is a violation of case 3. Log entries 60, 62,
66 and 99 hold the readings it rests on. -/
def Obligations.Registers : Prop :=
  ∀ (s : State) (off : BitVec 16) (w : Fin 9) (wr : Bool) (sp : PciSpace) (v : Word) (n : Fin 64) (c k : Fin 12),
    (s.opens off.toNat = true →
      (off.toNat ∈ [0x0000, 0x0004, 0x0008, 0x0010, 0x0014, 0x0400, 0x0404, 0x0408, 0x0410, 0x0800, 0x0804, 0x0810, 0x0C10, 0x0C14, 0x0C28, 0x0C30, 0x240C,
          0x2410, 0x2440, 0x2480, 0x2800, 0x2808, 0x2814, 0x2818, 0x281C, 0x2C00, 0x2C1C, 0x3004, 0x3008, 0x300C, 0x3404, 0x3408, 0x340C, 0x3800, 0x3804, 0x3808] →
        exec (.registerWrite .bar0 off 4 true v) s = .next s)
      ∧ (off.toNat = 0x3400 → exec (.registerWrite .bar0 off 4 true v) s = .next { s with railCfg := v &&& 0x0003FFFF#32 })
      ∧ (off.toNat = 0x3410 → s.panels.length = 2 → ∃ t, exec (.registerWrite .bar0 off 4 true v) s = .next t ∧ (t.panel 0).expect = v ∧ t.panel 1 = s.panel 1 ∧ t = { s with panels := t.panels })
      ∧ (off.toNat = 0x0C04 → exec (.registerWrite .bar0 off 4 true v) s = .next { s with rtc := { s.rtc with
          vbatLost := s.rtc.vbatLost && !v.getLsbD 5, wake := s.rtc.wake && !v.getLsbD 3 } })
      ∧ (off.toNat = 0x3000 → exec (.registerWrite .bar0 off 4 true v) s = .next { s with mem := { s.mem with
          eccUnc := s.mem.eccUnc && !v.getLsbD 31, eccCor := s.mem.eccCor && !v.getLsbD 30 } })
      ∧ (off.toNat = 0x2804 → v.toNat % 65536 ≠ 0 → v.toNat % 65536 ≠ 0xFFFF →
        (s.sys.mode = 7 → exec (.registerWrite .bar0 off 4 true v) s = .next { s with dom := { s.dom with idNext := v.toNat % 65536 } })
        ∧ (s.sys.mode ≠ 7 → exec (.registerWrite .bar0 off 4 true v) s = .next (violate 3 true false 0x2804 s)))
      ∧ (off.toNat = 0x3840 + 4 * k.val → s.dbgLocked = false → exec (.registerWrite .bar0 off 4 true v) s = .next { s with sec := { s.sec with resp := s.sec.resp.set k v } })
      ∧ (off.toNat = ringOff n + 12 → ((s.ring n).enable = true → exec (.registerWrite .bar0 off 4 true v) s = .next (violate 3 true false (ringOff n + 12) s))
        ∧ ((s.ring n).enable = false → ∃ t, exec (.registerWrite .bar0 off 4 true v) s = .next t ∧ t.ring n = { s.ring n with mod := v } ∧ (∀ m ≠ n.val, t.ring m = s.ring m)
          ∧ t = { s with hif := { s.hif with rings := t.hif.rings } }))
      ∧ (off.toNat = ringOff n + 4 → (s.ring n).enable = false → ∃ t, exec (.registerWrite .bar0 off 4 true v) s = .next t
        ∧ t.ring n = { s.ring n with base := { applied := (s.ring n).base.applies v.toNat, held := none, lo := (s.ring n).base.lo, hi := v } }
        ∧ (∀ m ≠ n.val, t.ring m = s.ring m) ∧ t = { s with hif := { s.hif with rings := t.hif.rings } })
      ∧ (off.toNat = chanOff c + 0x18 → ((s.chan c).busy = true → exec (.registerWrite .bar0 off 4 true v) s = .next (violate 3 true false (chanOff c + 0x18) s))
        ∧ ((s.chan c).busy = false → ∃ t, exec (.registerWrite .bar0 off 4 true v) s = .next t ∧ t.chan c = { s.chan c with len := v.toNat } ∧ (∀ m, m ≠ c.val → t.chan m = s.chan m)
          ∧ t = { s with mem := { s.mem with chans := t.mem.chans } }))
      ∧ (off.toNat = chanOff c + 0x0C → (s.chan c).busy = false → ∃ t, exec (.registerWrite .bar0 off 4 true v) s = .next t
        ∧ t.chan c = { s.chan c with src := { applied := (s.chan c).src.applies v.toNat, held := none, lo := (s.chan c).src.lo, hi := v } }
        ∧ (∀ m, m ≠ c.val → t.chan m = s.chan m) ∧ t = { s with mem := { s.mem with chans := t.mem.chans } })
      ∧ (off.toNat = chanOff c + 0x14 → (s.chan c).busy = false → ∃ t, exec (.registerWrite .bar0 off 4 true v) s = .next t
        ∧ t.chan c = { s.chan c with dst := { applied := (s.chan c).dst.applies v.toNat, held := none, lo := (s.chan c).dst.lo, hi := v } }
        ∧ (∀ m, m ≠ c.val → t.chan m = s.chan m) ∧ t = { s with mem := { s.mem with chans := t.mem.chans } }))
    ∧ (s.path = true → off.toNat % 4 = 0 →
      (regKnown off.toNat = false → exec (.registerWrite .bar0 off 4 true v) s = .next (violate 2 true false off.toNat s))
      ∧ (regKnown off.toNat = true → windowOpen s.sys.mode off.toNat = false →
        exec (.registerWrite .bar0 off 4 true v) s = .next (violate 3 true false off.toNat s)))
    ∧ (s.path = true → (sp ≠ .cfg → (w.val ≠ 4 ∨ off.toNat % 4 ≠ 0) → exec (.registerWrite sp off w wr v) s
        = .next (if wr then violate 1 true (decide (sp = .bar2)) off.toNat s else withRd 0 (violate 1 false (decide (sp = .bar2)) off.toNat s)))
      ∧ (off.toNat % 4 = 0 → regKnown off.toNat = false → exec (.registerWrite .bar0 off 4 false v) s = .next (withRd 0 (violate 2 false false off.toNat s)))
      ∧ (off.toNat % 4 = 0 → regKnown off.toNat = true → off.toNat ∉ [0x0800, 0x0C08, 0x0C14, 0x2818] → windowOpen s.sys.mode off.toNat = true →
        exec (.registerWrite .bar0 off 4 false v) s = .next { s with hif := { s.hif with rd := BitVec.ofNat 32 (regValue s off.toNat) } }))
    ∧ (s.endpoint.isSome = true → exec (.registerWrite .cfg off w false v) s = .next { s with hif := { s.hif with rd := BitVec.ofNat 32 (cfgValue s off.toNat) } })
    ∧ (s.endpoint = none → exec (.registerWrite .cfg off w wr v) s = .next s)
    ∧ (s.opens 0x0800 = true → exec .tickNumLRead s = .next { s with
        time := { s.time with shadow := some s.tick }, hif := { s.hif with rd := BitVec.ofNat 32 s.tick } })
    ∧ (s.opens 0x2818 = true → exec .domAdmitLRead s = .next { s with
        dom := { s.dom with admShadow := some s.admitMask }, hif := { s.hif with rd := BitVec.ofNat 32 s.admitMask } })
    ∧ (s.opens 0x000C = true → v.toNat / 65536 = 0x4D52 → (v.toNat % 16 = 5 ∨ v.toNat % 16 = 7) → s.ticking = true → ∃ t j, exec (.sysModeReq v) s = .next t
      ∧ t.hif.jobs = s.hif.jobs ++ [j] ∧ j.origin = .reg ∧ j.cmd.op = 0x02 ∧ j.cmd.arg1.toNat = v.toNat % 16 ∧ t = { s with hif := t.hif, rec_ := t.rec_ })
    ∧ (s.opens 0x000C = true → v.toNat / 65536 ≠ 0x4D52 → exec (.sysModeReq v) s = .next (violate 3 true false 0x000C s))
    ∧ (s.opens 0x040C = true → v.toNat / 65536 = 0x5242 → s.blockRunning = false → v.toNat % 256 ∈ [0x10, 0x11, 0x12, 0x13, 0x14] →
      blockPermitted (v.toNat % 256) s = true → exec (.rstBlock v) s = .next { s with sys := { s.sys with
        blkCode := v.toNat % 256, blkState := 1, blkForced := false, blkJob := none } })
    ∧ (s.opens 0x040C = true → v.toNat / 65536 ≠ 0x5242 → exec (.rstBlock v) s = .next (violate 3 true false 0x040C s))
    ∧ (s.opens 0x080C = true → s.master = true → ∃ t, exec (.tickUtcOffsetWrite v) s = .next t
      ∧ t.time.offNext = some (sx 64 (s.time.off.applies v.toNat)) ∧ t.time.off.applied = s.time.off.applies v.toNat ∧ t.time.offset = s.time.offset
      ∧ t = { s with time := { s.time with off := t.time.off, offNext := t.time.offNext }, rec_ := t.rec_ })
    ∧ (s.opens 0x0808 = true → s.master = true → exec (.regPairWrite 0x0808 v) s = .next { s with time := { s.time with
        off := { s.time.off with held := some v.toNat, lo := v } } })
    ∧ (s.opens (ringOff n) = true → (s.ring n).enable = true → exec (.regPairWrite (BitVec.ofNat 16 (ringOff n)) v) s = .next (violate 3 true false (ringOff n) s))
    ∧ (s.opens 0x380C = true → s.dbgLocked = false → v.getLsbD 0 = true → v.toNat / 65536 = 0x554C →
      exec (.secDbgVerify v) s = .next { s with sec := if Config.debugSigOk (dbgMessage s) (dbgResponse s) then { s.sec with unlocked := true, fail := false }
        else { s.sec with fail := true, tries := s.sec.tries + 1, draws := s.sec.draws + 1, resp := List.replicate 16 0 } })

/-! Panels, lamps, measurements and the console (14, 16). -/

/-- A panel's operation (R397, R405, R406, R409, R411 to R413, R416): the pending clear starts with its rails, good rails let it run and bad ones at
their deadline raise PANEL_RAIL, each frame counts at its slot once the frame before is over, and marks the operation to stop when its rails are
bad; once the last is over the operation ends, or a clear is followed by the update to the image of record, which carries no UPDATE_ID (R409). The other panel is untouched. -/
def Obligations.PanelOperation : Prop :=
  ∀ (s : State) (i : Fin 2) (o : PanelOp) (rails : List Int) (x : Nat) (new : List Byte) (y : Bool), s.panels.length = 2 →
    y = (s.panel i).railAt.all (fun t => decide (t + (if i.val = 0 then 10 else 5) ≤ s.tick)) →
    ((s.cfg.e.panelSet i).present = true → (s.panel i).op = none → (s.panel i).recovered = true → panelMode s.sys.mode i = true → s.panelEnabled i = true →
      (s.panel i).railFail = none → s.sys.powerFail = none → s.inReset 0x12 = false → (s.panel i).interrupted = none → (s.panel i).pendClear = some o →
      ∃ t, exec (.panelOperationStart i) s = .next t ∧ (t.panel i).op = some o ∧ (t.panel i).pendClear = none ∧ (t.panel i).frame = o.first
        ∧ (t.panel i).journal = journalOf s i (t.panel i) o 1 o.first ∧ ((t.panel i).rails = false → (t.panel i).railsUp = true)
        ∧ t.panel (1 - i.val) = s.panel (1 - i.val) ∧ t = { s with panels := t.panels, free := s.free + 1 })
    ∧ ((s.panel i).railsUp = true → (s.panel i).rails = false →
      (railsGood (s.cfg.e.panelSet i) i rails = true → (y = true ∨ i = 0) → (s.panel i).op = some o → ∃ t, exec (.railCheck i rails) s = .next t
        ∧ t.panel i = { s.panel i with rails := true, st := opState o.kind } ∧ t.panel (1 - i.val) = s.panel (1 - i.val) ∧ t = { s with panels := t.panels })
      ∧ (railsGood (s.cfg.e.panelSet i) i rails = false → y = true → ∃ t, exec (.railCheck i rails) s = .next t
        ∧ t.panel i = { s.panel i with railsUp := false, railDown := some s.tick, railFail := some s.tick, st := 7 }
        ∧ t.panel (1 - i.val) = s.panel (1 - i.val) ∧ t = { s with panels := t.panels, rec_ := t.rec_ })
      ∧ (railsGood (s.cfg.e.panelSet i) i rails = false → y = false → exec (.railCheck i rails) s = .next s))
    ∧ (frameSlot i s.tick = true → (s.panel i).op = some o → (s.panel i).rails = true → (s.panel i).frame < (s.panel i).frames →
      (s.panel i).inFrame s.tick = false → s.sys.powerFail = none → ∃ t, exec (.panelFrame i rails) s = .next t
        ∧ t.panel i = { s.panel i with frame := (s.panel i).frame + 1, frameAt := some s.tick, stopping := !railsGood (s.cfg.e.panelSet i) i rails }
        ∧ t.panel (1 - i.val) = s.panel (1 - i.val) ∧ t = { s with panels := t.panels })
    ∧ ((s.panel i).op = some o → (s.panel i).stopping = true → s.sys.powerFail = none → (s.panel i).inFrame x = false →
      ((panelEdge x i s).panel i).op = none ∧ ((panelEdge x i s).panel i).interrupted = some { o with first := (s.panel i).frame }
        ∧ ((panelEdge x i s).panel i).journal = journalAgain s i (s.panel i) o 3 (s.panel i).frame ∧ ((panelEdge x i s).panel i).railsUp = false
        ∧ ((panelEdge x i s).panel i).railFail = some x ∧ panelEdge x i s = { s with panels := (panelEdge x i s).panels, rec_ := (panelEdge x i s).rec_ })
    ∧ ((s.panel i).op = some o → (s.panel i).frames ≤ (s.panel i).frame → (s.panel i).stopping = false → s.frameOver (s.panel i) = true →
      (o.redraw = false → ∃ t, exec (.panelOperationEnd i) s = .next t
        ∧ (t.panel i).op = none ∧ (t.panel i).endTick = s.tick ∧ (t.panel i).crc = crc32 (t.panel i).old ∧ t.panel (1 - i.val) = s.panel (1 - i.val)
        ∧ (t.panel i).journal = journalAgain s i (s.panel i) o 2 (s.panel i).frame
        ∧ t = { s with panels := t.panels, rec_ := t.rec_, hif := t.hif, dom := t.dom, net := t.net })
      ∧ (o.redraw = true → o.kind = 1 → newestPlane s.cfg.e i (s.panel i) = some new → ∃ t, exec (.panelOperationEnd i) s = .next t
        ∧ (t.panel i).op = some (wholeOp (s.cfg.e.panelSet i) 0 0 false o.job) ∧ (t.panel i).old = whitePlane (s.cfg.e.panelSet i)
        ∧ (t.panel i).new = new ∧ (t.panel i).frame = 0 ∧ (t.panel i).isMatch = decide ((s.panel i).expect ≠ 0 ∧ (t.panel i).crc = (s.panel i).expect.toNat)
        ∧ t.panel (1 - i.val) = s.panel (1 - i.val) ∧ t = { s with panels := t.panels, rec_ := t.rec_, free := s.free + 1 }))
    ∧ ((s.panel i).railFail = some x → x + 1000 ≤ s.tick → s.panelEnabled i = true →
      (panelMode s.sys.mode i = true ∨ (s.sys.mode = 11 ∧ ((s.panel i).op.isSome = true ∨ (s.panel i).interrupted.isSome = true))) →
      ∃ t, exec (.panelRailRetry i) s = .next t
        ∧ t.panel i = { s.panel i with railFail := none, railsUp := true, railAt := some s.tick, st := 2 } ∧ t.panel (1 - i.val) = s.panel (1 - i.val)
        ∧ t = { s with panels := t.panels })

/-- What a panel does between operations (R405, R406, R414, R418 to R420): its rails go down, a hold refresh falls due, its CRC is rechecked, its
page is composed from the epoch of its tick and waits unless it is the image of record, and after a power failure with no journal record it is redrawn.
Log entry 94 holds the reading it rests on. -/
def Obligations.PanelUpkeep : Prop :=
  ∀ (s : State) (i : Fin 2) (u : List (Nat × Byte)) (b : Block), s.panels.length = 2 → (s.cfg.e.panelSet i).present = true →
    ((s.panel i).railsUp = true → (s.panel i).op = none → (s.panel i).endTick + s.railHold ≤ s.tick → (s.panel i).interrupted = none →
      (s.panel i).pendClear = none → (s.panel i).pendPage = none → (s.panel i).pendHost = none → (s.panel i).pendHold = false →
      ∃ t, exec (.railHoldExpiry i) s = .next t ∧ (t.panel i).railsUp = false ∧ (t.panel i).rails = false ∧ (t.panel i).railDown = some s.tick
        ∧ t.panel (1 - i.val) = s.panel (1 - i.val) ∧ t = { s with panels := t.panels })
    ∧ ((s.cfg.e.panelSet i).holdPeriod ≠ 0 → (s.panel i).op = none → (s.panel i).endTick + (s.cfg.e.panelSet i).holdPeriod ≤ s.tick →
      ∃ t, exec (.holdRefreshDue i) s = .next t ∧ t.panel i = { s.panel i with pendHold := true } ∧ t.panel (1 - i.val) = s.panel (1 - i.val)
        ∧ t = { s with panels := t.panels })
    ∧ (s.tick % 1000 = 0 → (s.panel i).crc = crc32 ((s.panel i).held u) → ∃ t, exec (.panelCrcRecheck i u) s = .next t
      ∧ (t.panel i).crc = (s.panel i).crc ∧ (t.panel i).pendClear = (s.panel i).pendClear ∧ (t.panel i).old = (s.panel i).old
      ∧ t.panel (1 - i.val) = s.panel (1 - i.val) ∧ t = { s with panels := t.panels, rec_ := t.rec_ })
    ∧ (s.tick % 1000 = 0 → (s.panel i).crc ≠ crc32 ((s.panel i).held u) → ∃ t, exec (.panelCrcRecheck i u) s = .next t
      ∧ (t.panel i).old = (s.panel i).held u ∧ (t.panel i).crc = crc32 ((s.panel i).held u) ∧ (t.panel i).pendClear = some ((s.panel i).pendClear.getD (wholeOp (s.cfg.e.panelSet i) 1 0 true none))
      ∧ t.panel (1 - i.val) = s.panel (1 - i.val) ∧ t = { s with panels := t.panels, rec_ := t.rec_ })
    ∧ ((s.eNow.panelSet i).present = true → (s.eNow.panelSet i).builtin = true → s.decides = true → s.tick % 1000 = 0 → 3 ≤ s.time.phase → s.rec_.block = some b → s.dec.lastTick = some s.tick →
      ∃ t, exec (.pageCompose i) s = .next t ∧ (t.panel i).page = composePage s.eNow s.dec s.dom.dev s.tick i
        ∧ ((∀ m ∈ (s.panel i).images.head?, m.rows ≠ (t.panel i).page) → (t.panel i).pendPage = some (t.panel i).page)
        ∧ ((∃ m ∈ (s.panel i).images.head?, m.rows = (t.panel i).page) → (t.panel i).pendPage = (s.panel i).pendPage)
        ∧ t.panel (1 - i.val) = s.panel (1 - i.val) ∧ t = { s with panels := t.panels })
    ∧ (s.cfg.has = true → (s.panel i).recovered = false → panelMode s.sys.mode i = true →
      (s.rtc.oscStop = true ∨ s.rtc.vbatLost = true ∨ readJournal (s.panel i).journal = none) →
      ∃ t, exec (.panelRecovery i) s = .next t ∧ (t.panel i).recovered = true ∧ (t.panel i).old = (s.panel i).old ∧ (t.panel i).crc = (s.panel i).crc
        ∧ (t.panel i).pendClear = some ((s.panel i).pendClear.getD (wholeOp (s.cfg.e.panelSet i) 1 0 true none))
        ∧ t.panel (1 - i.val) = s.panel (1 - i.val) ∧ t = { s with panels := t.panels, rec_ := t.rec_ })

/-- Output waveforms and pins (R172, R177, R178, R430): a duty repeat is high for its first 5 × v cycles; a frequency repeat keeps one phase through every
edge, and a new period acts from the next rising transition, so no period is truncated; protection holds an output off, and a lamp test drives its
lamps whatever is applied; a channel whose LPb is missing, or that is no output, drives nothing (R180). Panel B's rails follow their sequence, a tick
being 1 ms (R412). The panel bus and the PCI Express identity (R320, R321, R398, R517): in one frame of 211 200 clocks every pixel's drive
code is on D in its clock and row, between frames no line is driven; a module with a host presents the identity of the ordering code, and a worker
none. -/
def Obligations.OutputsAndBus : Prop :=
  (∀ (s : State) (w : Window) (f : Field) (g : Gen) (ch t v q : Nat),
    (f.applied.dio.getD ch .off = .duty v → v ≤ 4096 → ((List.range 20480).filter (f.level ch)).length = 5 * v ∧ (f.level ch t = true ↔ t < 5 * v))
    ∧ (v < 100 → repeatPeriod v = 0) ∧ (100 ≤ v → 2 * ((repeatPeriod v * v : Nat) - 20480000000 : Int).natAbs ≤ v)
    ∧ (g.p ≠ 0 → g.ph < g.p → g.next = g.p →
      (g.level t = true ↔ (g.ph + t) % g.p < g.p / 2) ∧ g.advance = { g with ph := (g.ph + 20480) % g.p })
    ∧ (g.p ≠ 0 → g.ph ≠ 0 → g.ph < g.p →
      ((g.apply q).level t = true ↔ (t < g.p - g.ph ∧ g.ph + t < g.p / 2) ∨ (g.p - g.ph ≤ t ∧ q ≠ 0 ∧ (t - (g.p - g.ph)) % q < q / 2)))
    ∧ (g.p = 0 ∨ g.ph = 0 → ((g.apply q).level t = true ↔ q ≠ 0 ∧ t % q < q / 2))
    ∧ (s.ticking = true → ch < 32 → ∃ u, exec (.tickEdge w) s = .next u
      ∧ (u.field.applied.dio.getD ch .off = .freq v → tget {} u.field.gens ch = (tget {} s.field.gens ch).advance.apply (repeatPeriod v)))
    ∧ (tget 0 s.field.dioOff ch ≠ 0 ∨ s.field.bands.getD (ch / 8) 0 = 2 ∨ (s.field.chan ch).dir ≠ 2 → s.dioPin ch = .off)
    ∧ (tget 0 s.field.dioOff ch = 0 → s.field.bands.getD (ch / 8) 0 ≠ 2 → (s.field.chan ch).dir = 2 → s.dioPin ch = s.field.applied.dio.getD ch .off)
    ∧ (tget 0 s.field.lampOff ch ≠ 0 → s.lampPin ch = .dark)
    ∧ (tget 0 s.field.lampOff ch = 0 → (∃ x ∈ s.field.lampTests, s.tick ≤ x.1 ∧ bit x.2.1 ch = true) →
      s.lampPin ch = .lit ((s.cfg.e.lamps.getD []).getD ch {}).current 255))
  ∧ (∀ (s : State) (i x y t : Nat) (d : Nat → Nat → Nat),
    ((∀ a b, d a b < 4) → x < 1024 → y < 768 →
      let z := frameBus i d (264 * (y + 4) + 8 + x / 4)
      z.sel = some i ∧ z.clk = true ∧ field z.d 2 (x % 4) = d x y)
    ∧ (211200 ≤ t → frameBus i d t = {})
    ∧ ((∀ k, ((s.panel k).op.isSome = true → (s.panel k).frameAt.all (fun f => decide (211200 ≤ 40000 * (s.tick - f) + t)) = true)) → s.panelBus t = {})
    ∧ (i < 2 → (s.panel i).op.isSome = true → (s.panel i).frameAt = some s.tick → (i = 0 ∨ (s.panel 0).frameAt = none) → t < 211200 →
      s.panelBus t = frameBus i (s.frameDrive i) t)
    ∧ (s.sys.role = 3 → s.endpoint = none)
    ∧ ((s.panel 1).railsUp = true → (s.panel 1).railAt = some x → x ≤ s.tick →
      s.railsB = [decide (x + 3 ≤ s.tick), decide (x + 1 ≤ s.tick), decide (x + 2 ≤ s.tick), true])
    ∧ ((s.panel 1).railsUp = false → (s.panel 1).railAt = some x → (s.panel 1).railDown = some y → x + 3 ≤ y → y ≤ s.tick →
      s.railsB = [false, decide (s.tick < y + 2), decide (s.tick < y + 1), decide (s.tick < y + 3)])
    ∧ (s.hosted = true → 4 ≤ s.sys.mode → s.hif.released = true → ∃ z, s.endpoint = some z ∧ z.vendor = 0x1F6A ∧ z.subVendor = 0x1F6A
      ∧ z.device = 0x6410 ∧ z.classCode = 0x088000 ∧ (z.subsystem = 1 ∨ z.subsystem = 2)))

/-- What ends a command that ran on (R88, R90, R93, R430, R465): each completes once, and its job is gone; a survey's result lies in the host's buffer,
and its routes come back in the next Lull (R17); a lead measurement's word is that of its 64 samples, and a block reset leaves its block released,
forced where it was not idle. The model's choices in it: what the survey's untested fields and its DURATION say (log entries 25 and 113), the word of a
lead measurement outside its range (log entry 114), and the lamp codes of the last tick (log entry 80). -/
def Obligations.RunningCommands : Prop :=
  ∀ (s : State) (j : Job) (r n x k : Nat) (idle : Bool) (ps : List PinSurvey) (qs : List PairSurvey) (unfit : BitVec 16) (pick : Fin 3), j.origin = .ring r n →
    (s.field.lampTests = [(x, 0xFFFF, j)] → x < s.tick → ∃ t e, exec .lampTestEnd s = .next t ∧ t.field = { s.field with lampTests := [] }
      ∧ t.dom.cmds = s.dom.cmds ++ [e] ∧ e.status = j.done ∧ e.index = n ∧ (∀ m < 16, e.a / 4 ^ m % 4 = tget 0 s.field.lampCode m % 4)
      ∧ t = { s with field := t.field, hif := t.hif, dom := { s.dom with cmds := t.dom.cmds } })
    ∧ (s.field.survey = some j → s.field.survNext = none → ps.map (·.pin) = maskPins j.pinMask → qs.map (fun y => (y.a, y.b)) = j.pairs → ∃ t e, exec (.surveyDone ps qs) s = .next t
      ∧ t.dom.cmds = s.dom.cmds ++ [e] ∧ e.status = j.done ∧ e.a = ps.length % 2 ^ 32 ∧ e.b = qs.length % 2 ^ 32
      ∧ (s.ticking = true ∨ (s.ring (s.ring r).link).live = false → k < (surveyResult j s.tick ps qs).length →
        tget 0 t.hif.mem (bufAddr j.cmd.arg4 + k) = (surveyResult j s.tick ps qs).getD k 0)
      ∧ t = { s with field := { s.field with survey := none, survNext := some 0 }, hif := t.hif, dom := { s.dom with cmds := t.dom.cmds } })
    ∧ (s.field.lead = some j → s.field.leadV.length = 64 → ∃ t e, exec (.leadMeasureDone unfit pick) s = .next t
      ∧ t.field = { s.field with lead := none, leadV := [], leadOpen := false } ∧ t.dom.cmds = s.dom.cmds ++ [e] ∧ e.status = j.done
      ∧ e.a = leadWord s.field.leadV (iexcNa (s.field.route.iexcCur (s.field.route.cellR (j.cmd.arg1.toNat % 64)).excSrc)) s.field.leadOpen unfit pick % 2 ^ 32
      ∧ t = { s with field := t.field, hif := t.hif, dom := { s.dom with cmds := t.dom.cmds } })
    ∧ (s.blockRunning = true → s.sys.powerFail = none → ∃ t, exec (.blockResetDone idle) s = .next t ∧ t.sys.blkState = 4 ∧ t.sys.blkForced = !idle
      ∧ t.sys.blkJob = none ∧ t.sys.blkCode = s.sys.blkCode
      ∧ (s.sys.blkJob = some j → ∃ e, t.dom.cmds.getLast? = some e ∧ e.status = j.done ∧ e.ring = r ∧ e.index = n ∧ e.tag = j.cmd.tag.toNat)
      ∧ (s.sys.blkCode = 0x13 → t.field.applied.lamps = List.replicate 16 .dark)
      ∧ (s.sys.blkCode ≤ 2 → t.field = s.field ∧ t.mem = s.mem ∧ t.panels = s.panels))

/-- The console (R469, R470): OPT GET prints the block in use, OPT SET takes an operand in its range and answers ERR 5 outside it, DBG outside TEST is
ERR 6, and OPT WRITE programs both copies with what was set and SEQ + 1; a copy so written reads back as it was (R468). Log entry 93 holds the reading it rests on. -/
def Obligations.Console : Prop :=
  ∀ (s : State) (n : Nat) (x : Bool), s.hasConsole = true →
    exec .optGet s = .next { s with mem := { s.mem with console := s.mem.console ++ (optFields s.mem.optUse ++ [.okay]) } }
    ∧ (n ≤ 63 → exec (.optSetDev n) s = .next { s with mem := { s.mem with optPend := { s.mem.optPend with devNum := BitVec.ofNat 8 n }, console := s.mem.console ++ [.okay] } })
    ∧ (63 < n → exec (.optSetDev n) s = .next { s with mem := { s.mem with console := s.mem.console ++ [.err 5] } })
    ∧ (1 ≤ n → n ≤ 0xFFFE → exec (.optSetDomain n) s = .next { s with mem := { s.mem with optPend := { s.mem.optPend with domain := BitVec.ofNat 16 n }, console := s.mem.console ++ [.okay] } })
    ∧ (n ≤ 65535 → exec (.optSetLevel n) s = .next { s with mem := { s.mem with optPend := { s.mem.optPend with level := BitVec.ofNat 16 n }, console := s.mem.console ++ [.okay] } })
    ∧ exec (.optSetSrcset x) s = .next { s with mem := { s.mem with optPend := { s.mem.optPend with setB := x }, console := s.mem.console ++ [.okay] } }
    ∧ exec (.optSetSlot x) s = .next { s with mem := { s.mem with optPend := { s.mem.optPend with prefB := x }, console := s.mem.console ++ [.okay] } }
    ∧ (s.sys.variant = 3 → exec (.optSetDbg x) s = .next { s with mem := { s.mem with optPend := { s.mem.optPend with dbgOpen := x }, console := s.mem.console ++ [.okay] } })
    ∧ (s.sys.variant ≠ 3 → exec (.optSetDbg x) s = .next { s with mem := { s.mem with console := s.mem.console ++ [.err 6] } })
    ∧ ∃ t o, exec .optWrite s = .next t ∧ o = { s.mem.optPend with seq := (s.mem.newestOpt.map (·.seq)).getD 0 + 1 }
      ∧ readOpt optMagic (encOpt optMagic o) = some o ∧ t.mem.console = s.mem.console ++ [.okay]
      ∧ (s.programsOk 1 = true → ∃ y, (y = encOpt optMagic o ∨ y = []) ∧ t.mem.opts = (s.mem.opts.set s.mem.olderOpt (encOpt optMagic o)).set (1 - s.mem.olderOpt) y)
      ∧ (s.programsOk 1 = false → t.mem.opts = s.mem.opts.set s.mem.olderOpt [])
      ∧ State.programs { s with mem := { s.mem with opts := t.mem.opts, console := t.mem.console } } t

/-! The tick (02). -/

/-- The edge (R29, R33, R36): the tick number counts on, SAMPLE begins, and outputs take what the last Lull staged unless the field side is
dead or nothing complete is staged, when the lamps alone do, which the logic side drives (R13, R17); a loop output on pins under SURVEY or on a stuck switch
gives no current (R80, R90). The phases in their order (R33): each comes only after the one before, and a phase out of order changes
nothing. Outputs, the backup domain and the host's DMA channels are no phase's but the Lull's. A frame that waits leaves in EVALUATE's unprotected
window when it fits behind those the port has sent (R300), and BLACKOUT sheds class 3, and class 2 but for the manager stream (R485). Log entries 8, 35 and 128 hold the readings it rests on. -/
def Obligations.Ticks : Prop :=
  ∀ (s : State) (d : Int) (w : Window) (h : Held), s.ticking = true →
    (∃ t, exec (.tickEdge w) s = .next t ∧ t.time.num = (s.time.num + 1) % 2 ^ 48 ∧ t.time.phase = 0
      ∧ (s.hif.jobs = [] → s.field.broke = false → s.inReset 0x13 = false → s.inReset 0x14 = false → t.field.applied = if s.field.stagedFull && !s.field.dead then s.field.driven s.field.staged
        else { s.field.applied with lamps := s.field.staged.lamps }))
    ∧ (s.time.phase = 0 → ∃ t, exec .evaluatePhase s = .next t ∧ t.time.phase = 1
      ∧ t = { s with time := { s.time with phase := 1 }, work := t.work, rec_ := { s.rec_ with block := t.rec_.block }
                     net := { s.net with ports := t.net.ports, out := t.net.out, seq := t.net.seq, held := t.net.held } }
      ∧ (s.net.held = [h] → h.shed s.sys.mode = false → h.cls ≤ 2 → h.port = 2 → (∀ p q z, h.frame ≠ .forward p q z) → s.inReset 0x11 = false →
        (∀ p < 2, (s.port p).link = true ∧ (s.port p).ring = true ∧ (s.port p).busyTo ≤ 1000000 * s.tick + 250000 ∧ (s.port p).ns h.len ≤ 265000) →
        t.net.held = [] ∧ t.net.out = s.net.out ++ [(s.net.seq, h.frame)] ∧ t.net.seq = (s.net.seq + 1) % 65536)
      ∧ (s.net.held = [h] → h.shed s.sys.mode = false → h.cls ≤ 3 → h.port = 2 → (s.port 0).link = true → (s.port 0).ring = true →
        1000000 * s.tick + 515000 < max (1000000 * s.tick + 250000) (s.port 0).busyTo + (s.port 0).ns h.len → t.net.held = [h] ∧ t.net.out = s.net.out)
      ∧ (s.net.held = [h] → h.shed s.sys.mode = true → t.net.held = [] ∧ t.net.out = s.net.out))
    ∧ (s.time.phase = 1 → ∃ t, exec .publishPhase s = .next t ∧ t.time.phase = 2 ∧ t.field = s.field ∧ t.rtc = s.rtc ∧ t.panels = s.panels
      ∧ ∀ k < 12, t.chan k = s.chan k)
    ∧ (s.time.phase = 2 → ∃ t, exec (.lullPhase d) s = .next t ∧ t.time.phase = 3 ∧ t.time.num = s.time.num)
    ∧ (s.time.phase ≠ 0 → exec .evaluatePhase s = .next s) ∧ (s.time.phase ≠ 1 → exec .publishPhase s = .next s)
    ∧ (s.time.phase ≠ 2 → exec (.lullPhase d) s = .next s)

/-- The checkpoint of every 16th tick, when N mod 16 = 15 (R61): the committed state at the end of the tick with the UTC offset, the epoch in force
and, on a serving module, the credit books and the epoch history; its copy is due when N + 1 is a multiple of 65 536; at most 64 are kept
while no audit runs. It is read back (R261, R376), which the model's Config gives: one that fails stands as absent with STORE_ERROR and CKPT_LOST
under set A (R266), and resets under set B (R287). A domain's manager with a standby sends it the role checkpoint (R275).
Log entry 147 holds the choice it rests on. -/
def Obligations.Checkpoints : Prop :=
  ∀ (s : State), s.deciding = true → 3 ≤ s.time.phase → s.tick % 16 = 15 → s.work = none → s.dec.lastTick = some s.tick →
    (s.rec_.ckpts.any fun c => c.tick = s.tick) = false → s.eng.audit = none → s.eng.repeatDue = none → s.eng.fault = none →
    (s.mem.optUse.setB = false → ∃ t k, exec .checkpointWrite s = .next t ∧ t.rec_.ckpts = (k :: s.rec_.ckpts).take 64
      ∧ k.tick = s.tick ∧ k.ok = (Config.badBlock s.free).isNone ∧ k.d = s.dec ∧ k.offset = s.time.offset ∧ k.epochId = s.epochId ∧ k.hist = s.dom.hist
      ∧ k.dioOff = s.field.dioOff ∧ (s.dom.serving = true → ∀ d, s.isAdmitted d = true → d < 64 → (d, (s.peer d).s, (s.peer d).ret) ∈ k.credits)
      ∧ t.rec_.copyDue = decide ((s.tick + 1) % 65536 = 0) ∧ t.dec = s.dec ∧ t.field = s.field ∧ t.rtc = s.rtc ∧ t.hif = s.hif
      ∧ (∀ n, n ≠ 15 → t.chan n = s.chan n)
      ∧ (match Config.badBlock s.free with
        | none => t.mem = { s.mem with chans := t.mem.chans } ∧ (10, 0) ∉ t.causes
        | some a => t.mem.eccUnc = true ∧ t.mem.lastStore = 2 ∧ t.mem.eccAddr.toNat = a % 2 ^ 32 ∧ (10, 0) ∈ t.causes)
      ∧ (s.domain = true → s.standbyPresent = true → s.inReset 0x11 = false → t.net = { s.net with held := s.net.held ++ [Frame.held (.stream (.role (roleCkpt s)))] })
      ∧ (s.domain = false → t.net = s.net))
    ∧ (s.mem.optUse.setB = true → ∃ t, exec .checkpointWrite s = .next t ∧ t.rtc.cnt = s.rtc.cnt
      ∧ (match Config.badBlock s.free with
        | none => t.rec_.ckpts.head?.map (fun k => (k.tick, k.ok)) = some (s.tick, true) ∧ t.sys.rstCause = s.sys.rstCause
        | some _ => t.sys.mode = 3 ∧ t.sys.rstCause = 5))
end

