-- ==== Sys2Proof/Laws/State.lean ====
section
/-! SUPPORT. What each update of the state does to each field: one lemma per field per update, so that no later proof
unfolds a record update. -/

namespace Sys2Proof.Machine

@[simp] theorem withDom_sys (f : Dom → Dom) (s : State) : (withDom f s).sys = s.sys := rfl
@[simp] theorem withDom_time (f : Dom → Dom) (s : State) : (withDom f s).time = s.time := rfl
@[simp] theorem withDom_causes (f : Dom → Dom) (s : State) : (withDom f s).causes = s.causes := rfl
@[simp] theorem withDom_cfg (f : Dom → Dom) (s : State) : (withDom f s).cfg = s.cfg := rfl
@[simp] theorem withDom_field (f : Dom → Dom) (s : State) : (withDom f s).field = s.field := rfl
@[simp] theorem withDom_rec_ (f : Dom → Dom) (s : State) : (withDom f s).rec_ = s.rec_ := rfl
@[simp] theorem withDom_dec (f : Dom → Dom) (s : State) : (withDom f s).dec = s.dec := rfl
@[simp] theorem withDom_work (f : Dom → Dom) (s : State) : (withDom f s).work = s.work := rfl
@[simp] theorem withDom_eng (f : Dom → Dom) (s : State) : (withDom f s).eng = s.eng := rfl
@[simp] theorem withDom_dom (f : Dom → Dom) (s : State) : (withDom f s).dom = f s.dom := rfl
@[simp] theorem withDom_net (f : Dom → Dom) (s : State) : (withDom f s).net = s.net := rfl
@[simp] theorem withDom_hif (f : Dom → Dom) (s : State) : (withDom f s).hif = s.hif := rfl
@[simp] theorem withDom_mem (f : Dom → Dom) (s : State) : (withDom f s).mem = s.mem := rfl
@[simp] theorem withDom_panels (f : Dom → Dom) (s : State) : (withDom f s).panels = s.panels := rfl
@[simp] theorem withDom_railCfg (f : Dom → Dom) (s : State) : (withDom f s).railCfg = s.railCfg := rfl
@[simp] theorem withDom_rtc (f : Dom → Dom) (s : State) : (withDom f s).rtc = s.rtc := rfl
@[simp] theorem withDom_sec (f : Dom → Dom) (s : State) : (withDom f s).sec = s.sec := rfl
@[simp] theorem withDom_free (f : Dom → Dom) (s : State) : (withDom f s).free = s.free := rfl
@[simp] theorem withDom_pending (f : Dom → Dom) (s : State) : (withDom f s).pending = s.pending := rfl

@[simp] theorem withSys_sys (f : Sys → Sys) (s : State) : (withSys f s).sys = f s.sys := rfl
@[simp] theorem withSys_time (f : Sys → Sys) (s : State) : (withSys f s).time = s.time := rfl
@[simp] theorem withSys_causes (f : Sys → Sys) (s : State) : (withSys f s).causes = s.causes := rfl
@[simp] theorem withSys_cfg (f : Sys → Sys) (s : State) : (withSys f s).cfg = s.cfg := rfl
@[simp] theorem withSys_field (f : Sys → Sys) (s : State) : (withSys f s).field = s.field := rfl
@[simp] theorem withSys_rec_ (f : Sys → Sys) (s : State) : (withSys f s).rec_ = s.rec_ := rfl
@[simp] theorem withSys_dec (f : Sys → Sys) (s : State) : (withSys f s).dec = s.dec := rfl
@[simp] theorem withSys_work (f : Sys → Sys) (s : State) : (withSys f s).work = s.work := rfl
@[simp] theorem withSys_eng (f : Sys → Sys) (s : State) : (withSys f s).eng = s.eng := rfl
@[simp] theorem withSys_dom (f : Sys → Sys) (s : State) : (withSys f s).dom = s.dom := rfl
@[simp] theorem withSys_net (f : Sys → Sys) (s : State) : (withSys f s).net = s.net := rfl
@[simp] theorem withSys_hif (f : Sys → Sys) (s : State) : (withSys f s).hif = s.hif := rfl
@[simp] theorem withSys_mem (f : Sys → Sys) (s : State) : (withSys f s).mem = s.mem := rfl
@[simp] theorem withSys_panels (f : Sys → Sys) (s : State) : (withSys f s).panels = s.panels := rfl
@[simp] theorem withSys_railCfg (f : Sys → Sys) (s : State) : (withSys f s).railCfg = s.railCfg := rfl
@[simp] theorem withSys_rtc (f : Sys → Sys) (s : State) : (withSys f s).rtc = s.rtc := rfl
@[simp] theorem withSys_sec (f : Sys → Sys) (s : State) : (withSys f s).sec = s.sec := rfl
@[simp] theorem withSys_free (f : Sys → Sys) (s : State) : (withSys f s).free = s.free := rfl
@[simp] theorem withSys_pending (f : Sys → Sys) (s : State) : (withSys f s).pending = s.pending := rfl

@[simp] theorem withField_sys (f : Field → Field) (s : State) : (withField f s).sys = s.sys := rfl
@[simp] theorem withField_time (f : Field → Field) (s : State) : (withField f s).time = s.time := rfl
@[simp] theorem withField_causes (f : Field → Field) (s : State) : (withField f s).causes = s.causes := rfl
@[simp] theorem withField_cfg (f : Field → Field) (s : State) : (withField f s).cfg = s.cfg := rfl
@[simp] theorem withField_field (f : Field → Field) (s : State) : (withField f s).field = f s.field := rfl
@[simp] theorem withField_rec_ (f : Field → Field) (s : State) : (withField f s).rec_ = s.rec_ := rfl
@[simp] theorem withField_dec (f : Field → Field) (s : State) : (withField f s).dec = s.dec := rfl
@[simp] theorem withField_work (f : Field → Field) (s : State) : (withField f s).work = s.work := rfl
@[simp] theorem withField_eng (f : Field → Field) (s : State) : (withField f s).eng = s.eng := rfl
@[simp] theorem withField_dom (f : Field → Field) (s : State) : (withField f s).dom = s.dom := rfl
@[simp] theorem withField_net (f : Field → Field) (s : State) : (withField f s).net = s.net := rfl
@[simp] theorem withField_hif (f : Field → Field) (s : State) : (withField f s).hif = s.hif := rfl
@[simp] theorem withField_mem (f : Field → Field) (s : State) : (withField f s).mem = s.mem := rfl
@[simp] theorem withField_panels (f : Field → Field) (s : State) : (withField f s).panels = s.panels := rfl
@[simp] theorem withField_railCfg (f : Field → Field) (s : State) : (withField f s).railCfg = s.railCfg := rfl
@[simp] theorem withField_rtc (f : Field → Field) (s : State) : (withField f s).rtc = s.rtc := rfl
@[simp] theorem withField_sec (f : Field → Field) (s : State) : (withField f s).sec = s.sec := rfl
@[simp] theorem withField_free (f : Field → Field) (s : State) : (withField f s).free = s.free := rfl
@[simp] theorem withField_pending (f : Field → Field) (s : State) : (withField f s).pending = s.pending := rfl

@[simp] theorem withRtc_sys (f : Rtc → Rtc) (s : State) : (withRtc f s).sys = s.sys := rfl
@[simp] theorem withRtc_time (f : Rtc → Rtc) (s : State) : (withRtc f s).time = s.time := rfl
@[simp] theorem withRtc_causes (f : Rtc → Rtc) (s : State) : (withRtc f s).causes = s.causes := rfl
@[simp] theorem withRtc_cfg (f : Rtc → Rtc) (s : State) : (withRtc f s).cfg = s.cfg := rfl
@[simp] theorem withRtc_field (f : Rtc → Rtc) (s : State) : (withRtc f s).field = s.field := rfl
@[simp] theorem withRtc_rec_ (f : Rtc → Rtc) (s : State) : (withRtc f s).rec_ = s.rec_ := rfl
@[simp] theorem withRtc_dec (f : Rtc → Rtc) (s : State) : (withRtc f s).dec = s.dec := rfl
@[simp] theorem withRtc_work (f : Rtc → Rtc) (s : State) : (withRtc f s).work = s.work := rfl
@[simp] theorem withRtc_eng (f : Rtc → Rtc) (s : State) : (withRtc f s).eng = s.eng := rfl
@[simp] theorem withRtc_dom (f : Rtc → Rtc) (s : State) : (withRtc f s).dom = s.dom := rfl
@[simp] theorem withRtc_net (f : Rtc → Rtc) (s : State) : (withRtc f s).net = s.net := rfl
@[simp] theorem withRtc_hif (f : Rtc → Rtc) (s : State) : (withRtc f s).hif = s.hif := rfl
@[simp] theorem withRtc_mem (f : Rtc → Rtc) (s : State) : (withRtc f s).mem = s.mem := rfl
@[simp] theorem withRtc_panels (f : Rtc → Rtc) (s : State) : (withRtc f s).panels = s.panels := rfl
@[simp] theorem withRtc_railCfg (f : Rtc → Rtc) (s : State) : (withRtc f s).railCfg = s.railCfg := rfl
@[simp] theorem withRtc_rtc (f : Rtc → Rtc) (s : State) : (withRtc f s).rtc = f s.rtc := rfl
@[simp] theorem withRtc_sec (f : Rtc → Rtc) (s : State) : (withRtc f s).sec = s.sec := rfl
@[simp] theorem withRtc_free (f : Rtc → Rtc) (s : State) : (withRtc f s).free = s.free := rfl
@[simp] theorem withRtc_pending (f : Rtc → Rtc) (s : State) : (withRtc f s).pending = s.pending := rfl

@[simp] theorem withEng_sys (f : Eng → Eng) (s : State) : (withEng f s).sys = s.sys := rfl
@[simp] theorem withEng_time (f : Eng → Eng) (s : State) : (withEng f s).time = s.time := rfl
@[simp] theorem withEng_causes (f : Eng → Eng) (s : State) : (withEng f s).causes = s.causes := rfl
@[simp] theorem withEng_cfg (f : Eng → Eng) (s : State) : (withEng f s).cfg = s.cfg := rfl
@[simp] theorem withEng_field (f : Eng → Eng) (s : State) : (withEng f s).field = s.field := rfl
@[simp] theorem withEng_rec_ (f : Eng → Eng) (s : State) : (withEng f s).rec_ = s.rec_ := rfl
@[simp] theorem withEng_dec (f : Eng → Eng) (s : State) : (withEng f s).dec = s.dec := rfl
@[simp] theorem withEng_work (f : Eng → Eng) (s : State) : (withEng f s).work = s.work := rfl
@[simp] theorem withEng_eng (f : Eng → Eng) (s : State) : (withEng f s).eng = f s.eng := rfl
@[simp] theorem withEng_dom (f : Eng → Eng) (s : State) : (withEng f s).dom = s.dom := rfl
@[simp] theorem withEng_net (f : Eng → Eng) (s : State) : (withEng f s).net = s.net := rfl
@[simp] theorem withEng_hif (f : Eng → Eng) (s : State) : (withEng f s).hif = s.hif := rfl
@[simp] theorem withEng_mem (f : Eng → Eng) (s : State) : (withEng f s).mem = s.mem := rfl
@[simp] theorem withEng_panels (f : Eng → Eng) (s : State) : (withEng f s).panels = s.panels := rfl
@[simp] theorem withEng_railCfg (f : Eng → Eng) (s : State) : (withEng f s).railCfg = s.railCfg := rfl
@[simp] theorem withEng_rtc (f : Eng → Eng) (s : State) : (withEng f s).rtc = s.rtc := rfl
@[simp] theorem withEng_sec (f : Eng → Eng) (s : State) : (withEng f s).sec = s.sec := rfl
@[simp] theorem withEng_free (f : Eng → Eng) (s : State) : (withEng f s).free = s.free := rfl
@[simp] theorem withEng_pending (f : Eng → Eng) (s : State) : (withEng f s).pending = s.pending := rfl

@[simp] theorem withMem_sys (f : Mem → Mem) (s : State) : (withMem f s).sys = s.sys := rfl
@[simp] theorem withMem_time (f : Mem → Mem) (s : State) : (withMem f s).time = s.time := rfl
@[simp] theorem withMem_causes (f : Mem → Mem) (s : State) : (withMem f s).causes = s.causes := rfl
@[simp] theorem withMem_cfg (f : Mem → Mem) (s : State) : (withMem f s).cfg = s.cfg := rfl
@[simp] theorem withMem_field (f : Mem → Mem) (s : State) : (withMem f s).field = s.field := rfl
@[simp] theorem withMem_rec_ (f : Mem → Mem) (s : State) : (withMem f s).rec_ = s.rec_ := rfl
@[simp] theorem withMem_dec (f : Mem → Mem) (s : State) : (withMem f s).dec = s.dec := rfl
@[simp] theorem withMem_work (f : Mem → Mem) (s : State) : (withMem f s).work = s.work := rfl
@[simp] theorem withMem_eng (f : Mem → Mem) (s : State) : (withMem f s).eng = s.eng := rfl
@[simp] theorem withMem_dom (f : Mem → Mem) (s : State) : (withMem f s).dom = s.dom := rfl
@[simp] theorem withMem_net (f : Mem → Mem) (s : State) : (withMem f s).net = s.net := rfl
@[simp] theorem withMem_hif (f : Mem → Mem) (s : State) : (withMem f s).hif = s.hif := rfl
@[simp] theorem withMem_mem (f : Mem → Mem) (s : State) : (withMem f s).mem = f s.mem := rfl
@[simp] theorem withMem_panels (f : Mem → Mem) (s : State) : (withMem f s).panels = s.panels := rfl
@[simp] theorem withMem_railCfg (f : Mem → Mem) (s : State) : (withMem f s).railCfg = s.railCfg := rfl
@[simp] theorem withMem_rtc (f : Mem → Mem) (s : State) : (withMem f s).rtc = s.rtc := rfl
@[simp] theorem withMem_sec (f : Mem → Mem) (s : State) : (withMem f s).sec = s.sec := rfl
@[simp] theorem withMem_free (f : Mem → Mem) (s : State) : (withMem f s).free = s.free := rfl
@[simp] theorem withMem_pending (f : Mem → Mem) (s : State) : (withMem f s).pending = s.pending := rfl

@[simp] theorem withHif_sys (f : Hif → Hif) (s : State) : (withHif f s).sys = s.sys := rfl
@[simp] theorem withHif_time (f : Hif → Hif) (s : State) : (withHif f s).time = s.time := rfl
@[simp] theorem withHif_causes (f : Hif → Hif) (s : State) : (withHif f s).causes = s.causes := rfl
@[simp] theorem withHif_cfg (f : Hif → Hif) (s : State) : (withHif f s).cfg = s.cfg := rfl
@[simp] theorem withHif_field (f : Hif → Hif) (s : State) : (withHif f s).field = s.field := rfl
@[simp] theorem withHif_rec_ (f : Hif → Hif) (s : State) : (withHif f s).rec_ = s.rec_ := rfl
@[simp] theorem withHif_dec (f : Hif → Hif) (s : State) : (withHif f s).dec = s.dec := rfl
@[simp] theorem withHif_work (f : Hif → Hif) (s : State) : (withHif f s).work = s.work := rfl
@[simp] theorem withHif_eng (f : Hif → Hif) (s : State) : (withHif f s).eng = s.eng := rfl
@[simp] theorem withHif_dom (f : Hif → Hif) (s : State) : (withHif f s).dom = s.dom := rfl
@[simp] theorem withHif_net (f : Hif → Hif) (s : State) : (withHif f s).net = s.net := rfl
@[simp] theorem withHif_hif (f : Hif → Hif) (s : State) : (withHif f s).hif = f s.hif := rfl
@[simp] theorem withHif_mem (f : Hif → Hif) (s : State) : (withHif f s).mem = s.mem := rfl
@[simp] theorem withHif_panels (f : Hif → Hif) (s : State) : (withHif f s).panels = s.panels := rfl
@[simp] theorem withHif_railCfg (f : Hif → Hif) (s : State) : (withHif f s).railCfg = s.railCfg := rfl
@[simp] theorem withHif_rtc (f : Hif → Hif) (s : State) : (withHif f s).rtc = s.rtc := rfl
@[simp] theorem withHif_sec (f : Hif → Hif) (s : State) : (withHif f s).sec = s.sec := rfl
@[simp] theorem withHif_free (f : Hif → Hif) (s : State) : (withHif f s).free = s.free := rfl
@[simp] theorem withHif_pending (f : Hif → Hif) (s : State) : (withHif f s).pending = s.pending := rfl

@[simp] theorem transmit_sys (f : Frame) (s : State) : (transmit f s).sys = s.sys := rfl
@[simp] theorem transmit_time (f : Frame) (s : State) : (transmit f s).time = s.time := rfl
@[simp] theorem transmit_causes (f : Frame) (s : State) : (transmit f s).causes = s.causes := rfl
@[simp] theorem transmit_cfg (f : Frame) (s : State) : (transmit f s).cfg = s.cfg := rfl
@[simp] theorem transmit_field (f : Frame) (s : State) : (transmit f s).field = s.field := rfl
@[simp] theorem transmit_rec_ (f : Frame) (s : State) : (transmit f s).rec_ = s.rec_ := rfl
@[simp] theorem transmit_dec (f : Frame) (s : State) : (transmit f s).dec = s.dec := rfl
@[simp] theorem transmit_work (f : Frame) (s : State) : (transmit f s).work = s.work := rfl
@[simp] theorem transmit_eng (f : Frame) (s : State) : (transmit f s).eng = s.eng := rfl
@[simp] theorem transmit_dom (f : Frame) (s : State) : (transmit f s).dom = s.dom := rfl
@[simp] theorem transmit_hif (f : Frame) (s : State) : (transmit f s).hif = s.hif := rfl
@[simp] theorem transmit_mem (f : Frame) (s : State) : (transmit f s).mem = s.mem := rfl
@[simp] theorem transmit_panels (f : Frame) (s : State) : (transmit f s).panels = s.panels := rfl
@[simp] theorem transmit_railCfg (f : Frame) (s : State) : (transmit f s).railCfg = s.railCfg := rfl
@[simp] theorem transmit_rtc (f : Frame) (s : State) : (transmit f s).rtc = s.rtc := rfl
@[simp] theorem transmit_sec (f : Frame) (s : State) : (transmit f s).sec = s.sec := rfl
@[simp] theorem transmit_free (f : Frame) (s : State) : (transmit f s).free = s.free := rfl
@[simp] theorem transmit_pending (f : Frame) (s : State) : (transmit f s).pending = s.pending := rfl
@[simp] theorem transmit_net (f : Frame) (s : State) : (transmit f s).net = if s.inReset 0x11 then s.net else s.net.transmit f := rfl

@[simp] theorem send_sys (f : Frame) (s : State) : (send f s).sys = s.sys := rfl
@[simp] theorem send_time (f : Frame) (s : State) : (send f s).time = s.time := rfl
@[simp] theorem send_causes (f : Frame) (s : State) : (send f s).causes = s.causes := rfl
@[simp] theorem send_cfg (f : Frame) (s : State) : (send f s).cfg = s.cfg := rfl
@[simp] theorem send_field (f : Frame) (s : State) : (send f s).field = s.field := rfl
@[simp] theorem send_rec_ (f : Frame) (s : State) : (send f s).rec_ = s.rec_ := rfl
@[simp] theorem send_dec (f : Frame) (s : State) : (send f s).dec = s.dec := rfl
@[simp] theorem send_work (f : Frame) (s : State) : (send f s).work = s.work := rfl
@[simp] theorem send_eng (f : Frame) (s : State) : (send f s).eng = s.eng := rfl
@[simp] theorem send_dom (f : Frame) (s : State) : (send f s).dom = s.dom := rfl
@[simp] theorem send_net (f : Frame) (s : State) : (send f s).net = if s.inReset 0x11 then s.net else s.net.send f := rfl
@[simp] theorem send_hif (f : Frame) (s : State) : (send f s).hif = s.hif := rfl
@[simp] theorem send_mem (f : Frame) (s : State) : (send f s).mem = s.mem := rfl
@[simp] theorem send_panels (f : Frame) (s : State) : (send f s).panels = s.panels := rfl
@[simp] theorem send_railCfg (f : Frame) (s : State) : (send f s).railCfg = s.railCfg := rfl
@[simp] theorem send_rtc (f : Frame) (s : State) : (send f s).rtc = s.rtc := rfl
@[simp] theorem send_sec (f : Frame) (s : State) : (send f s).sec = s.sec := rfl
@[simp] theorem send_free (f : Frame) (s : State) : (send f s).free = s.free := rfl
@[simp] theorem send_pending (f : Frame) (s : State) : (send f s).pending = s.pending := rfl

@[simp] theorem setRing_sys (n : Nat) (r : Ring) (s : State) : (setRing n r s).sys = s.sys := rfl
@[simp] theorem setRing_time (n : Nat) (r : Ring) (s : State) : (setRing n r s).time = s.time := rfl
@[simp] theorem setRing_causes (n : Nat) (r : Ring) (s : State) : (setRing n r s).causes = s.causes := rfl
@[simp] theorem setRing_cfg (n : Nat) (r : Ring) (s : State) : (setRing n r s).cfg = s.cfg := rfl
@[simp] theorem setRing_field (n : Nat) (r : Ring) (s : State) : (setRing n r s).field = s.field := rfl
@[simp] theorem setRing_rec_ (n : Nat) (r : Ring) (s : State) : (setRing n r s).rec_ = s.rec_ := rfl
@[simp] theorem setRing_dec (n : Nat) (r : Ring) (s : State) : (setRing n r s).dec = s.dec := rfl
@[simp] theorem setRing_work (n : Nat) (r : Ring) (s : State) : (setRing n r s).work = s.work := rfl
@[simp] theorem setRing_eng (n : Nat) (r : Ring) (s : State) : (setRing n r s).eng = s.eng := rfl
@[simp] theorem setRing_dom (n : Nat) (r : Ring) (s : State) : (setRing n r s).dom = s.dom := rfl
@[simp] theorem setRing_net (n : Nat) (r : Ring) (s : State) : (setRing n r s).net = s.net := rfl
@[simp] theorem setRing_hif (n : Nat) (r : Ring) (s : State) : (setRing n r s).hif = { s.hif with rings := tset {} s.hif.rings n r } := rfl
@[simp] theorem setRing_mem (n : Nat) (r : Ring) (s : State) : (setRing n r s).mem = s.mem := rfl
@[simp] theorem setRing_panels (n : Nat) (r : Ring) (s : State) : (setRing n r s).panels = s.panels := rfl
@[simp] theorem setRing_railCfg (n : Nat) (r : Ring) (s : State) : (setRing n r s).railCfg = s.railCfg := rfl
@[simp] theorem setRing_rtc (n : Nat) (r : Ring) (s : State) : (setRing n r s).rtc = s.rtc := rfl
@[simp] theorem setRing_sec (n : Nat) (r : Ring) (s : State) : (setRing n r s).sec = s.sec := rfl
@[simp] theorem setRing_free (n : Nat) (r : Ring) (s : State) : (setRing n r s).free = s.free := rfl
@[simp] theorem setRing_pending (n : Nat) (r : Ring) (s : State) : (setRing n r s).pending = s.pending := rfl

@[simp] theorem setPeer_sys (d : Nat) (p : Peer) (s : State) : (setPeer d p s).sys = s.sys := rfl
@[simp] theorem setPeer_time (d : Nat) (p : Peer) (s : State) : (setPeer d p s).time = s.time := rfl
@[simp] theorem setPeer_causes (d : Nat) (p : Peer) (s : State) : (setPeer d p s).causes = s.causes := rfl
@[simp] theorem setPeer_cfg (d : Nat) (p : Peer) (s : State) : (setPeer d p s).cfg = s.cfg := rfl
@[simp] theorem setPeer_field (d : Nat) (p : Peer) (s : State) : (setPeer d p s).field = s.field := rfl
@[simp] theorem setPeer_rec_ (d : Nat) (p : Peer) (s : State) : (setPeer d p s).rec_ = s.rec_ := rfl
@[simp] theorem setPeer_dec (d : Nat) (p : Peer) (s : State) : (setPeer d p s).dec = s.dec := rfl
@[simp] theorem setPeer_work (d : Nat) (p : Peer) (s : State) : (setPeer d p s).work = s.work := rfl
@[simp] theorem setPeer_eng (d : Nat) (p : Peer) (s : State) : (setPeer d p s).eng = s.eng := rfl
@[simp] theorem setPeer_dom (d : Nat) (p : Peer) (s : State) : (setPeer d p s).dom = { s.dom with peers := tset {} s.dom.peers d p } := rfl
@[simp] theorem setPeer_net (d : Nat) (p : Peer) (s : State) : (setPeer d p s).net = s.net := rfl
@[simp] theorem setPeer_hif (d : Nat) (p : Peer) (s : State) : (setPeer d p s).hif = s.hif := rfl
@[simp] theorem setPeer_mem (d : Nat) (p : Peer) (s : State) : (setPeer d p s).mem = s.mem := rfl
@[simp] theorem setPeer_panels (d : Nat) (p : Peer) (s : State) : (setPeer d p s).panels = s.panels := rfl
@[simp] theorem setPeer_railCfg (d : Nat) (p : Peer) (s : State) : (setPeer d p s).railCfg = s.railCfg := rfl
@[simp] theorem setPeer_rtc (d : Nat) (p : Peer) (s : State) : (setPeer d p s).rtc = s.rtc := rfl
@[simp] theorem setPeer_sec (d : Nat) (p : Peer) (s : State) : (setPeer d p s).sec = s.sec := rfl
@[simp] theorem setPeer_free (d : Nat) (p : Peer) (s : State) : (setPeer d p s).free = s.free := rfl
@[simp] theorem setPeer_pending (d : Nat) (p : Peer) (s : State) : (setPeer d p s).pending = s.pending := rfl

@[simp] theorem setChan_sys (c : Nat) (x : Chan) (s : State) : (setChan c x s).sys = s.sys := rfl
@[simp] theorem setChan_time (c : Nat) (x : Chan) (s : State) : (setChan c x s).time = s.time := rfl
@[simp] theorem setChan_causes (c : Nat) (x : Chan) (s : State) : (setChan c x s).causes = s.causes := rfl
@[simp] theorem setChan_cfg (c : Nat) (x : Chan) (s : State) : (setChan c x s).cfg = s.cfg := rfl
@[simp] theorem setChan_field (c : Nat) (x : Chan) (s : State) : (setChan c x s).field = s.field := rfl
@[simp] theorem setChan_rec_ (c : Nat) (x : Chan) (s : State) : (setChan c x s).rec_ = s.rec_ := rfl
@[simp] theorem setChan_dec (c : Nat) (x : Chan) (s : State) : (setChan c x s).dec = s.dec := rfl
@[simp] theorem setChan_work (c : Nat) (x : Chan) (s : State) : (setChan c x s).work = s.work := rfl
@[simp] theorem setChan_eng (c : Nat) (x : Chan) (s : State) : (setChan c x s).eng = s.eng := rfl
@[simp] theorem setChan_dom (c : Nat) (x : Chan) (s : State) : (setChan c x s).dom = s.dom := rfl
@[simp] theorem setChan_net (c : Nat) (x : Chan) (s : State) : (setChan c x s).net = s.net := rfl
@[simp] theorem setChan_hif (c : Nat) (x : Chan) (s : State) : (setChan c x s).hif = s.hif := rfl
@[simp] theorem setChan_mem (c : Nat) (x : Chan) (s : State) : (setChan c x s).mem = { s.mem with chans := tset {} s.mem.chans c x } := rfl
@[simp] theorem setChan_panels (c : Nat) (x : Chan) (s : State) : (setChan c x s).panels = s.panels := rfl
@[simp] theorem setChan_railCfg (c : Nat) (x : Chan) (s : State) : (setChan c x s).railCfg = s.railCfg := rfl
@[simp] theorem setChan_rtc (c : Nat) (x : Chan) (s : State) : (setChan c x s).rtc = s.rtc := rfl
@[simp] theorem setChan_sec (c : Nat) (x : Chan) (s : State) : (setChan c x s).sec = s.sec := rfl
@[simp] theorem setChan_free (c : Nat) (x : Chan) (s : State) : (setChan c x s).free = s.free := rfl
@[simp] theorem setChan_pending (c : Nat) (x : Chan) (s : State) : (setChan c x s).pending = s.pending := rfl

@[simp] theorem setPort_sys (p : Nat) (x : Port) (s : State) : (setPort p x s).sys = s.sys := rfl
@[simp] theorem setPort_time (p : Nat) (x : Port) (s : State) : (setPort p x s).time = s.time := rfl
@[simp] theorem setPort_causes (p : Nat) (x : Port) (s : State) : (setPort p x s).causes = s.causes := rfl
@[simp] theorem setPort_cfg (p : Nat) (x : Port) (s : State) : (setPort p x s).cfg = s.cfg := rfl
@[simp] theorem setPort_field (p : Nat) (x : Port) (s : State) : (setPort p x s).field = s.field := rfl
@[simp] theorem setPort_rec_ (p : Nat) (x : Port) (s : State) : (setPort p x s).rec_ = s.rec_ := rfl
@[simp] theorem setPort_dec (p : Nat) (x : Port) (s : State) : (setPort p x s).dec = s.dec := rfl
@[simp] theorem setPort_work (p : Nat) (x : Port) (s : State) : (setPort p x s).work = s.work := rfl
@[simp] theorem setPort_eng (p : Nat) (x : Port) (s : State) : (setPort p x s).eng = s.eng := rfl
@[simp] theorem setPort_dom (p : Nat) (x : Port) (s : State) : (setPort p x s).dom = s.dom := rfl
@[simp] theorem setPort_net (p : Nat) (x : Port) (s : State) : (setPort p x s).net = { s.net with ports := s.net.ports.set p x } := rfl
@[simp] theorem setPort_hif (p : Nat) (x : Port) (s : State) : (setPort p x s).hif = s.hif := rfl
@[simp] theorem setPort_mem (p : Nat) (x : Port) (s : State) : (setPort p x s).mem = s.mem := rfl
@[simp] theorem setPort_panels (p : Nat) (x : Port) (s : State) : (setPort p x s).panels = s.panels := rfl
@[simp] theorem setPort_railCfg (p : Nat) (x : Port) (s : State) : (setPort p x s).railCfg = s.railCfg := rfl
@[simp] theorem setPort_rtc (p : Nat) (x : Port) (s : State) : (setPort p x s).rtc = s.rtc := rfl
@[simp] theorem setPort_sec (p : Nat) (x : Port) (s : State) : (setPort p x s).sec = s.sec := rfl
@[simp] theorem setPort_free (p : Nat) (x : Port) (s : State) : (setPort p x s).free = s.free := rfl
@[simp] theorem setPort_pending (p : Nat) (x : Port) (s : State) : (setPort p x s).pending = s.pending := rfl

@[simp] theorem modPort_sys (p : Nat) (f : Port → Port) (s : State) : (modPort p f s).sys = s.sys := rfl
@[simp] theorem modPort_time (p : Nat) (f : Port → Port) (s : State) : (modPort p f s).time = s.time := rfl
@[simp] theorem modPort_causes (p : Nat) (f : Port → Port) (s : State) : (modPort p f s).causes = s.causes := rfl
@[simp] theorem modPort_cfg (p : Nat) (f : Port → Port) (s : State) : (modPort p f s).cfg = s.cfg := rfl
@[simp] theorem modPort_field (p : Nat) (f : Port → Port) (s : State) : (modPort p f s).field = s.field := rfl
@[simp] theorem modPort_rec_ (p : Nat) (f : Port → Port) (s : State) : (modPort p f s).rec_ = s.rec_ := rfl
@[simp] theorem modPort_dec (p : Nat) (f : Port → Port) (s : State) : (modPort p f s).dec = s.dec := rfl
@[simp] theorem modPort_work (p : Nat) (f : Port → Port) (s : State) : (modPort p f s).work = s.work := rfl
@[simp] theorem modPort_eng (p : Nat) (f : Port → Port) (s : State) : (modPort p f s).eng = s.eng := rfl
@[simp] theorem modPort_dom (p : Nat) (f : Port → Port) (s : State) : (modPort p f s).dom = s.dom := rfl
@[simp] theorem modPort_net (p : Nat) (f : Port → Port) (s : State) : (modPort p f s).net = { s.net with ports := s.net.ports.set p (f (s.port p)) } := rfl
@[simp] theorem modPort_hif (p : Nat) (f : Port → Port) (s : State) : (modPort p f s).hif = s.hif := rfl
@[simp] theorem modPort_mem (p : Nat) (f : Port → Port) (s : State) : (modPort p f s).mem = s.mem := rfl
@[simp] theorem modPort_panels (p : Nat) (f : Port → Port) (s : State) : (modPort p f s).panels = s.panels := rfl
@[simp] theorem modPort_railCfg (p : Nat) (f : Port → Port) (s : State) : (modPort p f s).railCfg = s.railCfg := rfl
@[simp] theorem modPort_rtc (p : Nat) (f : Port → Port) (s : State) : (modPort p f s).rtc = s.rtc := rfl
@[simp] theorem modPort_sec (p : Nat) (f : Port → Port) (s : State) : (modPort p f s).sec = s.sec := rfl
@[simp] theorem modPort_free (p : Nat) (f : Port → Port) (s : State) : (modPort p f s).free = s.free := rfl
@[simp] theorem modPort_pending (p : Nat) (f : Port → Port) (s : State) : (modPort p f s).pending = s.pending := rfl

@[simp] theorem setPanel_sys (i : Nat) (p : Panel) (s : State) : (setPanel i p s).sys = s.sys := rfl
@[simp] theorem setPanel_time (i : Nat) (p : Panel) (s : State) : (setPanel i p s).time = s.time := rfl
@[simp] theorem setPanel_causes (i : Nat) (p : Panel) (s : State) : (setPanel i p s).causes = s.causes := rfl
@[simp] theorem setPanel_cfg (i : Nat) (p : Panel) (s : State) : (setPanel i p s).cfg = s.cfg := rfl
@[simp] theorem setPanel_field (i : Nat) (p : Panel) (s : State) : (setPanel i p s).field = s.field := rfl
@[simp] theorem setPanel_rec_ (i : Nat) (p : Panel) (s : State) : (setPanel i p s).rec_ = s.rec_ := rfl
@[simp] theorem setPanel_dec (i : Nat) (p : Panel) (s : State) : (setPanel i p s).dec = s.dec := rfl
@[simp] theorem setPanel_work (i : Nat) (p : Panel) (s : State) : (setPanel i p s).work = s.work := rfl
@[simp] theorem setPanel_eng (i : Nat) (p : Panel) (s : State) : (setPanel i p s).eng = s.eng := rfl
@[simp] theorem setPanel_dom (i : Nat) (p : Panel) (s : State) : (setPanel i p s).dom = s.dom := rfl
@[simp] theorem setPanel_net (i : Nat) (p : Panel) (s : State) : (setPanel i p s).net = s.net := rfl
@[simp] theorem setPanel_hif (i : Nat) (p : Panel) (s : State) : (setPanel i p s).hif = s.hif := rfl
@[simp] theorem setPanel_mem (i : Nat) (p : Panel) (s : State) : (setPanel i p s).mem = s.mem := rfl
@[simp] theorem setPanel_panels (i : Nat) (p : Panel) (s : State) : (setPanel i p s).panels = s.panels.set i p := rfl
@[simp] theorem setPanel_railCfg (i : Nat) (p : Panel) (s : State) : (setPanel i p s).railCfg = s.railCfg := rfl
@[simp] theorem setPanel_rtc (i : Nat) (p : Panel) (s : State) : (setPanel i p s).rtc = s.rtc := rfl
@[simp] theorem setPanel_sec (i : Nat) (p : Panel) (s : State) : (setPanel i p s).sec = s.sec := rfl
@[simp] theorem setPanel_free (i : Nat) (p : Panel) (s : State) : (setPanel i p s).free = s.free := rfl
@[simp] theorem setPanel_pending (i : Nat) (p : Panel) (s : State) : (setPanel i p s).pending = s.pending := rfl

@[simp] theorem modPanel_sys (i : Nat) (f : Panel → Panel) (s : State) : (modPanel i f s).sys = s.sys := rfl
@[simp] theorem modPanel_time (i : Nat) (f : Panel → Panel) (s : State) : (modPanel i f s).time = s.time := rfl
@[simp] theorem modPanel_causes (i : Nat) (f : Panel → Panel) (s : State) : (modPanel i f s).causes = s.causes := rfl
@[simp] theorem modPanel_cfg (i : Nat) (f : Panel → Panel) (s : State) : (modPanel i f s).cfg = s.cfg := rfl
@[simp] theorem modPanel_field (i : Nat) (f : Panel → Panel) (s : State) : (modPanel i f s).field = s.field := rfl
@[simp] theorem modPanel_rec_ (i : Nat) (f : Panel → Panel) (s : State) : (modPanel i f s).rec_ = s.rec_ := rfl
@[simp] theorem modPanel_dec (i : Nat) (f : Panel → Panel) (s : State) : (modPanel i f s).dec = s.dec := rfl
@[simp] theorem modPanel_work (i : Nat) (f : Panel → Panel) (s : State) : (modPanel i f s).work = s.work := rfl
@[simp] theorem modPanel_eng (i : Nat) (f : Panel → Panel) (s : State) : (modPanel i f s).eng = s.eng := rfl
@[simp] theorem modPanel_dom (i : Nat) (f : Panel → Panel) (s : State) : (modPanel i f s).dom = s.dom := rfl
@[simp] theorem modPanel_net (i : Nat) (f : Panel → Panel) (s : State) : (modPanel i f s).net = s.net := rfl
@[simp] theorem modPanel_hif (i : Nat) (f : Panel → Panel) (s : State) : (modPanel i f s).hif = s.hif := rfl
@[simp] theorem modPanel_mem (i : Nat) (f : Panel → Panel) (s : State) : (modPanel i f s).mem = s.mem := rfl
@[simp] theorem modPanel_panels (i : Nat) (f : Panel → Panel) (s : State) : (modPanel i f s).panels = s.panels.set i (f (s.panel i)) := rfl
@[simp] theorem modPanel_railCfg (i : Nat) (f : Panel → Panel) (s : State) : (modPanel i f s).railCfg = s.railCfg := rfl
@[simp] theorem modPanel_rtc (i : Nat) (f : Panel → Panel) (s : State) : (modPanel i f s).rtc = s.rtc := rfl
@[simp] theorem modPanel_sec (i : Nat) (f : Panel → Panel) (s : State) : (modPanel i f s).sec = s.sec := rfl
@[simp] theorem modPanel_free (i : Nat) (f : Panel → Panel) (s : State) : (modPanel i f s).free = s.free := rfl
@[simp] theorem modPanel_pending (i : Nat) (f : Panel → Panel) (s : State) : (modPanel i f s).pending = s.pending := rfl

@[simp] theorem setPhase_sys (p : Nat) (s : State) : (setPhase p s).sys = s.sys := rfl
@[simp] theorem setPhase_time (p : Nat) (s : State) : (setPhase p s).time = { s.time with phase := p } := rfl
@[simp] theorem setPhase_causes (p : Nat) (s : State) : (setPhase p s).causes = s.causes := rfl
@[simp] theorem setPhase_cfg (p : Nat) (s : State) : (setPhase p s).cfg = s.cfg := rfl
@[simp] theorem setPhase_field (p : Nat) (s : State) : (setPhase p s).field = s.field := rfl
@[simp] theorem setPhase_rec_ (p : Nat) (s : State) : (setPhase p s).rec_ = s.rec_ := rfl
@[simp] theorem setPhase_dec (p : Nat) (s : State) : (setPhase p s).dec = s.dec := rfl
@[simp] theorem setPhase_work (p : Nat) (s : State) : (setPhase p s).work = s.work := rfl
@[simp] theorem setPhase_eng (p : Nat) (s : State) : (setPhase p s).eng = s.eng := rfl
@[simp] theorem setPhase_dom (p : Nat) (s : State) : (setPhase p s).dom = s.dom := rfl
@[simp] theorem setPhase_net (p : Nat) (s : State) : (setPhase p s).net = s.net := rfl
@[simp] theorem setPhase_hif (p : Nat) (s : State) : (setPhase p s).hif = s.hif := rfl
@[simp] theorem setPhase_mem (p : Nat) (s : State) : (setPhase p s).mem = s.mem := rfl
@[simp] theorem setPhase_panels (p : Nat) (s : State) : (setPhase p s).panels = s.panels := rfl
@[simp] theorem setPhase_railCfg (p : Nat) (s : State) : (setPhase p s).railCfg = s.railCfg := rfl
@[simp] theorem setPhase_rtc (p : Nat) (s : State) : (setPhase p s).rtc = s.rtc := rfl
@[simp] theorem setPhase_sec (p : Nat) (s : State) : (setPhase p s).sec = s.sec := rfl
@[simp] theorem setPhase_free (p : Nat) (s : State) : (setPhase p s).free = s.free := rfl
@[simp] theorem setPhase_pending (p : Nat) (s : State) : (setPhase p s).pending = s.pending := rfl

@[simp] theorem modDec_sys (f : Dec → Dec) (s : State) : (modDec f s).sys = s.sys := rfl
@[simp] theorem modDec_time (f : Dec → Dec) (s : State) : (modDec f s).time = s.time := rfl
@[simp] theorem modDec_causes (f : Dec → Dec) (s : State) : (modDec f s).causes = s.causes := rfl
@[simp] theorem modDec_cfg (f : Dec → Dec) (s : State) : (modDec f s).cfg = s.cfg := rfl
@[simp] theorem modDec_field (f : Dec → Dec) (s : State) : (modDec f s).field = s.field := rfl
@[simp] theorem modDec_rec_ (f : Dec → Dec) (s : State) : (modDec f s).rec_ = s.rec_ := rfl
@[simp] theorem modDec_dec (f : Dec → Dec) (s : State) : (modDec f s).dec = f s.dec := rfl
@[simp] theorem modDec_work (f : Dec → Dec) (s : State) : (modDec f s).work = s.work.map fun w => { w with d := f w.d } := rfl
@[simp] theorem modDec_eng (f : Dec → Dec) (s : State) : (modDec f s).eng = s.eng := rfl
@[simp] theorem modDec_dom (f : Dec → Dec) (s : State) : (modDec f s).dom = s.dom := rfl
@[simp] theorem modDec_net (f : Dec → Dec) (s : State) : (modDec f s).net = s.net := rfl
@[simp] theorem modDec_hif (f : Dec → Dec) (s : State) : (modDec f s).hif = s.hif := rfl
@[simp] theorem modDec_mem (f : Dec → Dec) (s : State) : (modDec f s).mem = s.mem := rfl
@[simp] theorem modDec_panels (f : Dec → Dec) (s : State) : (modDec f s).panels = s.panels := rfl
@[simp] theorem modDec_railCfg (f : Dec → Dec) (s : State) : (modDec f s).railCfg = s.railCfg := rfl
@[simp] theorem modDec_rtc (f : Dec → Dec) (s : State) : (modDec f s).rtc = s.rtc := rfl
@[simp] theorem modDec_sec (f : Dec → Dec) (s : State) : (modDec f s).sec = s.sec := rfl
@[simp] theorem modDec_free (f : Dec → Dec) (s : State) : (modDec f s).free = s.free := rfl
@[simp] theorem modDec_pending (f : Dec → Dec) (s : State) : (modDec f s).pending = s.pending := rfl

@[simp] theorem withRd_sys (v : Nat) (s : State) : (withRd v s).sys = s.sys := rfl
@[simp] theorem withRd_time (v : Nat) (s : State) : (withRd v s).time = s.time := rfl
@[simp] theorem withRd_causes (v : Nat) (s : State) : (withRd v s).causes = s.causes := rfl
@[simp] theorem withRd_cfg (v : Nat) (s : State) : (withRd v s).cfg = s.cfg := rfl
@[simp] theorem withRd_field (v : Nat) (s : State) : (withRd v s).field = s.field := rfl
@[simp] theorem withRd_rec_ (v : Nat) (s : State) : (withRd v s).rec_ = s.rec_ := rfl
@[simp] theorem withRd_dec (v : Nat) (s : State) : (withRd v s).dec = s.dec := rfl
@[simp] theorem withRd_work (v : Nat) (s : State) : (withRd v s).work = s.work := rfl
@[simp] theorem withRd_eng (v : Nat) (s : State) : (withRd v s).eng = s.eng := rfl
@[simp] theorem withRd_dom (v : Nat) (s : State) : (withRd v s).dom = s.dom := rfl
@[simp] theorem withRd_net (v : Nat) (s : State) : (withRd v s).net = s.net := rfl
@[simp] theorem withRd_hif (v : Nat) (s : State) : (withRd v s).hif = { s.hif with rd := BitVec.ofNat 32 v } := rfl
@[simp] theorem withRd_mem (v : Nat) (s : State) : (withRd v s).mem = s.mem := rfl
@[simp] theorem withRd_panels (v : Nat) (s : State) : (withRd v s).panels = s.panels := rfl
@[simp] theorem withRd_railCfg (v : Nat) (s : State) : (withRd v s).railCfg = s.railCfg := rfl
@[simp] theorem withRd_rtc (v : Nat) (s : State) : (withRd v s).rtc = s.rtc := rfl
@[simp] theorem withRd_sec (v : Nat) (s : State) : (withRd v s).sec = s.sec := rfl
@[simp] theorem withRd_free (v : Nat) (s : State) : (withRd v s).free = s.free := rfl
@[simp] theorem withRd_pending (v : Nat) (s : State) : (withRd v s).pending = s.pending := rfl

@[simp] theorem violate_time (c : Nat) (w b : Bool) (o : Nat) (s : State) : (violate c w b o s).time = s.time := rfl
@[simp] theorem violate_causes (c : Nat) (w b : Bool) (o : Nat) (s : State) : (violate c w b o s).causes = s.causes := rfl
@[simp] theorem violate_cfg (c : Nat) (w b : Bool) (o : Nat) (s : State) : (violate c w b o s).cfg = s.cfg := rfl
@[simp] theorem violate_field (c : Nat) (w b : Bool) (o : Nat) (s : State) : (violate c w b o s).field = s.field := rfl
@[simp] theorem violate_rec_ (c : Nat) (w b : Bool) (o : Nat) (s : State) : (violate c w b o s).rec_ = s.rec_ := rfl
@[simp] theorem violate_dec (c : Nat) (w b : Bool) (o : Nat) (s : State) : (violate c w b o s).dec = s.dec := rfl
@[simp] theorem violate_work (c : Nat) (w b : Bool) (o : Nat) (s : State) : (violate c w b o s).work = s.work := rfl
@[simp] theorem violate_eng (c : Nat) (w b : Bool) (o : Nat) (s : State) : (violate c w b o s).eng = s.eng := rfl
@[simp] theorem violate_dom (c : Nat) (w b : Bool) (o : Nat) (s : State) : (violate c w b o s).dom = s.dom := rfl
@[simp] theorem violate_net (c : Nat) (w b : Bool) (o : Nat) (s : State) : (violate c w b o s).net = s.net := rfl
@[simp] theorem violate_hif (c : Nat) (w b : Bool) (o : Nat) (s : State) : (violate c w b o s).hif = s.hif := rfl
@[simp] theorem violate_mem (c : Nat) (w b : Bool) (o : Nat) (s : State) : (violate c w b o s).mem = s.mem := rfl
@[simp] theorem violate_panels (c : Nat) (w b : Bool) (o : Nat) (s : State) : (violate c w b o s).panels = s.panels := rfl
@[simp] theorem violate_railCfg (c : Nat) (w b : Bool) (o : Nat) (s : State) : (violate c w b o s).railCfg = s.railCfg := rfl
@[simp] theorem violate_rtc (c : Nat) (w b : Bool) (o : Nat) (s : State) : (violate c w b o s).rtc = s.rtc := rfl
@[simp] theorem violate_sec (c : Nat) (w b : Bool) (o : Nat) (s : State) : (violate c w b o s).sec = s.sec := rfl
@[simp] theorem violate_free (c : Nat) (w b : Bool) (o : Nat) (s : State) : (violate c w b o s).free = s.free := rfl
@[simp] theorem violate_pending (c : Nat) (w b : Bool) (o : Nat) (s : State) : (violate c w b o s).pending = s.pending := rfl

@[simp] theorem when_true (f : State → State) (s : State) : when_ true f s = f s := rfl
@[simp] theorem when_false (f : State → State) (s : State) : when_ false f s = s := rfl

end Sys2Proof.Machine
end

