-- ==== Sys2Proof/Laws/Tbl.lean ====
section
/-! SUPPORT. Laws of the sparse tables: read after write, the frame of a write, and that every write keeps the canonical form. -/

namespace Sys2Proof.Machine

variable {α : Type}

@[simp] theorem tget_nil (d : α) (k : Nat) : tget d [] k = d := rfl

theorem tget_tdel_same (d : α) (t : Tbl α) (k : Nat) : tget d (tdel t k) k = d := by
  induction t with
  | nil => rfl
  | cons e t ih => simp only [tdel]; split <;> simp_all [tget]

theorem tget_tdel_other (d : α) (t : Tbl α) {j k : Nat} (h : j ≠ k) : tget d (tdel t k) j = tget d t j := by
  induction t with
  | nil => rfl
  | cons e t ih =>
    simp only [tdel]
    split
    · next he => rw [ih]; simp [tget, he, Ne.symm h]
    · simp [tget, ih]

theorem tget_tput_same (d : α) (t : Tbl α) (k : Nat) (v : α) : tget d (tput t k v) k = v := by
  induction t with
  | nil => simp [tput, tget]
  | cons e t ih =>
    simp only [tput]
    split
    · simp [tget]
    · split
      · simp [tget]
      · next h => simp [tget, ih, Ne.symm h]

theorem tget_tput_other (d : α) (t : Tbl α) {j k : Nat} (v : α) (h : j ≠ k) : tget d (tput t k v) j = tget d t j := by
  induction t with
  | nil => simp [tput, tget, Ne.symm h]
  | cons e t ih =>
    simp only [tput]
    split
    · simp [tget, Ne.symm h]
    · split
      · next he => simp [tget, ← he, Ne.symm h]
      · simp [tget, ih]

/-- Read after write at the same key. -/
@[simp] theorem tget_tset_same [DecidableEq α] (d : α) (t : Tbl α) (k : Nat) (v : α) : tget d (tset d t k v) k = v := by
  unfold tset
  split
  · next h => rw [tget_tdel_same, h]
  · exact tget_tput_same d t k v

/-- A write leaves every other key alone. -/
theorem tget_tset_other [DecidableEq α] (d : α) (t : Tbl α) {j k : Nat} (v : α) (h : j ≠ k) :
    tget d (tset d t k v) j = tget d t j := by
  unfold tset
  split
  · exact tget_tdel_other d t h
  · exact tget_tput_other d t v h

/-- `tsorted` with a bound that every key exceeds. -/
def keysAbove (lo : Option Nat) (k : Nat) : Bool := match lo with
  | none => true
  | some l => decide (l < k)

theorem tsorted_cons (lo : Option Nat) (k : Nat) (v : α) (t : Tbl α) :
    tsorted lo ((k, v) :: t) = (keysAbove lo k && tsorted (some k) t) := by
  cases lo <;> simp [tsorted, keysAbove]

theorem tsorted_weaken {lo : Option Nat} {j : Nat} {t : Tbl α} (h : tsorted (some j) t = true) (hl : keysAbove lo j = true) :
    tsorted lo t = true := by
  cases t with
  | nil => cases lo <;> rfl
  | cons e t =>
    rw [tsorted_cons] at h ⊢
    simp only [Bool.and_eq_true] at h ⊢
    refine ⟨?_, h.2⟩
    cases lo with
    | none => rfl
    | some l => simp only [keysAbove, decide_eq_true_eq] at *; omega

theorem tsorted_tdel {lo : Option Nat} {t : Tbl α} (k : Nat) (h : tsorted lo t = true) : tsorted lo (tdel t k) = true := by
  induction t generalizing lo with
  | nil => simpa [tdel] using h
  | cons e t ih =>
    obtain ⟨j, v⟩ := e
    rw [tsorted_cons] at h
    simp only [Bool.and_eq_true] at h
    simp only [tdel]
    split
    · exact ih (tsorted_weaken h.2 h.1)
    · rw [tsorted_cons]; simp [h.1, ih h.2]

theorem tsorted_tput {lo : Option Nat} {t : Tbl α} (k : Nat) (v : α) (h : tsorted lo t = true) (hk : keysAbove lo k = true) :
    tsorted lo (tput t k v) = true := by
  induction t generalizing lo with
  | nil => simp only [tput]; rw [tsorted_cons]; simp [hk, tsorted]
  | cons e t ih =>
    obtain ⟨j, w⟩ := e
    rw [tsorted_cons] at h
    simp only [Bool.and_eq_true] at h
    simp only [tput]
    split
    · next hlt =>
      rw [tsorted_cons, tsorted_cons]
      simp only [Bool.and_eq_true]
      exact ⟨hk, by simpa [keysAbove] using hlt, h.2⟩
    · split
      · next he => rw [tsorted_cons, he]; simp [h.1, h.2]
      · next hn he =>
        rw [tsorted_cons]
        simp only [h.1, Bool.true_and]
        exact ih h.2 (by simp only [keysAbove, decide_eq_true_eq]; omega)

theorem all_tdel {p : Nat × α → Bool} {t : Tbl α} (k : Nat) (h : t.all p = true) : (tdel t k).all p = true := by
  induction t with
  | nil => rfl
  | cons e t ih =>
    simp only [List.all_cons, Bool.and_eq_true] at h
    simp only [tdel]
    split
    · exact ih h.2
    · simp [h.1, ih h.2]

theorem all_tput {p : Nat × α → Bool} {t : Tbl α} (k : Nat) (v : α) (h : t.all p = true) (hv : p (k, v) = true) :
    (tput t k v).all p = true := by
  induction t with
  | nil => simp [tput, hv]
  | cons e t ih =>
    simp only [List.all_cons, Bool.and_eq_true] at h
    simp only [tput]
    split
    · simp [hv, h.1, h.2]
    · split
      · simp [hv, h.2]
      · simp [h.1, ih h.2]

/-- Every write keeps the canonical form. -/
theorem twf_tset [DecidableEq α] {d : α} {t : Tbl α} (k : Nat) (v : α) (h : twf d t = true) : twf d (tset d t k v) = true := by
  simp only [twf, Bool.and_eq_true] at h ⊢
  unfold tset
  split
  · exact ⟨tsorted_tdel k h.1, all_tdel k h.2⟩
  · next hv => exact ⟨tsorted_tput k v h.1 rfl, all_tput k v h.2 (by simpa using hv)⟩

theorem twf_nil [DecidableEq α] (d : α) : twf d ([] : Tbl α) = true := rfl

/-- A run of writes keeps the canonical form. -/
theorem twf_foldl_tset [DecidableEq α] {β : Type} {d : α} (f : β → Nat) (g : β → α) (l : List β) {t : Tbl α} (h : twf d t = true) :
    twf d (l.foldl (fun m x => tset d m (f x) (g x)) t) = true := by
  induction l generalizing t with
  | nil => exact h
  | cons x l ih => exact ih (twf_tset _ _ h)

/-- A run of writes leaves every key it does not name alone. -/
theorem tget_foldl_other [DecidableEq α] {β : Type} (d : α) (f : β → Nat) (g : β → α) (l : List β) (t : Tbl α) (j : Nat)
    (h : ∀ x ∈ l, f x ≠ j) : tget d (l.foldl (fun m x => tset d m (f x) (g x)) t) j = tget d t j := by
  induction l generalizing t with
  | nil => rfl
  | cons x l ih =>
    simp only [List.foldl_cons]
    rw [ih _ fun y hy => h y (List.mem_cons_of_mem _ hy)]
    exact tget_tset_other d t _ (Ne.symm (h x (List.mem_cons_self ..)))

end Sys2Proof.Machine
end

