-- ==== Sys2Proof/Laws/Ops.lean ====
section
/-! SUPPORT. What each shared operation can do: the fields it may touch, written as the state it answers with every other field the
old one's, and what it leaves in those it does touch. -/

namespace Sys2Proof.Machine

variable {s : State}

/-! Status events, modes and degradation causes. -/

theorem raiseModes_frame (cause mb ma dw4 dw5 : Nat) (s : State) :
    raiseModes cause mb ma dw4 dw5 s = { s with rec_ := (raiseModes cause mb ma dw4 dw5 s).rec_ } := by
  unfold raiseModes
  dsimp only
  split
  · rfl
  · split
    · split <;> rfl
    · rfl

theorem raise_frame (cause dw4 dw5 : Nat) (s : State) : raise cause dw4 dw5 s = { s with rec_ := (raise cause dw4 dw5 s).rec_ } :=
  raiseModes_frame ..

theorem setMode_frame (m : Nat) (s : State) : setMode m s = { s with sys := (setMode m s).sys, rec_ := (setMode m s).rec_ } := by
  unfold setMode
  split
  · rfl
  · split
    · rw [raiseModes_frame]
    · rfl

@[simp] theorem setMode_mode (m : Nat) (s : State) : (setMode m s).sys.mode = m := by
  unfold setMode
  split
  · next h => exact h.symm
  · rfl

theorem addCause_frame (c : Cause) (s : State) :
    addCause c s = { s with sys := (addCause c s).sys, rec_ := (addCause c s).rec_, causes := (addCause c s).causes } := by
  unfold addCause
  dsimp only
  split <;> split
  · rw [setMode_frame]
  · rfl
  · rw [setMode_frame]
  · rfl

theorem addCause_mem (c : Cause) (s : State) : c ∈ (addCause c s).causes := by
  unfold addCause
  dsimp only
  split <;> split
  · rw [setMode_frame]; assumption
  · assumption
  · rw [setMode_frame]; simp
  · simp

theorem delCauses_frame (p : Cause → Bool) (s : State) :
    delCauses p s = { s with sys := (delCauses p s).sys, rec_ := (delCauses p s).rec_, causes := s.causes.filter fun c => !p c } := by
  unfold delCauses
  dsimp only
  split
  · rw [setMode_frame]
  · rfl

theorem delCause_frame (c : Cause) (s : State) :
    delCause c s = { s with sys := (delCause c s).sys, rec_ := (delCause c s).rec_, causes := s.causes.filter fun d => !decide (d = c) } :=
  delCauses_frame ..

theorem delCause_not_mem (c : Cause) (s : State) : c ∉ (delCause c s).causes := by
  rw [delCause_frame]
  simp

@[simp] theorem stageMode_sys (s : State) : (stageMode s).sys = s.sys := by
  unfold stageMode
  dsimp only
  repeat' split
  all_goals rfl

theorem when_sys {f : State → State} (hf : ∀ s, (f s).sys = s.sys) (b : Bool) (s : State) : (when_ b f s).sys = s.sys := by
  cases b
  · rfl
  · exact hf s

@[simp] theorem shedPanel_sys (m was : Nat) (s : State) : (shedPanel m was s).sys = s.sys :=
  (when_sys (f := modPanel 0 _) (fun _ => rfl) ..).trans (when_sys (f := modPanel 0 _) (fun _ => rfl) ..)

/-- A module that enters a mode is in it. -/
@[simp] theorem enterMode_mode (m : Nat) (s : State) : (enterMode m s).sys.mode = m := by
  unfold enterMode
  split
  · next h => exact h.symm
  · rw [stageMode_sys, when_sys (f := enterSync) (fun _ => rfl), shedPanel_sys, setMode_mode]

@[simp] theorem secondFault_mode (k n : Nat) (s : State) : (secondFault k n s).sys.mode = if s.sys.mode = 6 then 6 else 12 := by
  have h : (raise 0x9F k n (keepStatus s)).sys.mode = s.sys.mode := by rw [raise_frame]; rfl
  unfold secondFault
  dsimp only
  rw [h]
  split
  · rw [h]; assumption
  · exact enterMode_mode ..

/-- An addition of a cause leaves the mode, but for RUN, which becomes RUN-DEGRADED. -/
theorem addCause_mode (c : Cause) (s : State) : (addCause c s).sys.mode = if s.sys.mode = 9 then 10 else s.sys.mode := by
  unfold addCause
  dsimp only
  split <;> (split <;> simp_all)

/-- The end of causes leaves the mode, but for RUN-DEGRADED with none left, which becomes RUN. -/
theorem delCauses_mode (p : Cause → Bool) (s : State) :
    (delCauses p s).sys.mode = if s.sys.mode = 10 ∧ (s.causes.filter fun c => !p c) = [] then 9 else s.sys.mode := by
  unfold delCauses
  dsimp only
  split <;> rename_i h <;> simp only [Bool.and_eq_true, decide_eq_true_eq] at h
  · rw [if_pos h, setMode_mode]
  · rw [if_neg h]

/-! The tick's work, frames and violations. -/

theorem modDec_frame (f : Dec → Dec) (s : State) : modDec f s = { s with dec := f s.dec, work := (modDec f s).work } := rfl

/-- The ports and the node table stand when a frame leaves or waits to. -/
@[simp] theorem Net.transmit_ports (f : Frame) (y : Net) : (y.transmit f).ports = y.ports := by
  cases f <;> rfl

@[simp] theorem Net.send_ports (f : Frame) (y : Net) : (y.send f).ports = y.ports := by
  unfold Net.send
  split
  · exact Net.transmit_ports ..
  · rfl

/-- A frame of class 0 leaves at once, with the next sequence number unless it is forwarded. -/
theorem Net.send_now {f : Frame} (y : Net) (h : f.cls = 0) : y.send f = y.transmit f := if_pos h

/-- A frame of any other class waits. -/
theorem Net.send_wait {f : Frame} (y : Net) (h : f.cls ≠ 0) :
    y.send f = { y with held := y.held ++ [f.held] } := if_neg h

theorem send_frame (f : Frame) (s : State) : send f s = { s with net := if s.inReset 0x11 then s.net else s.net.send f } := rfl

theorem violate_frame (k : Nat) (w b : Bool) (o : Nat) (s : State) :
    violate k w b o s = { s with sys := { s.sys with violCnt := (violate k w b o s).sys.violCnt, violLast := (violate k w b o s).sys.violLast } } := rfl

/-! Host memory. -/

theorem hostWrite_frame (a : Nat) (bs : List Byte) (s : State) :
    hostWrite a bs s = { s with hif := { s.hif with mem := (hostWrite a bs s).hif.mem } } := rfl

/-- Every byte outside the written ones reads as before. -/
theorem hostWrite_other (a : Nat) (bs : List Byte) (s : State) {j : Nat} (h : j < a ∨ a + bs.length ≤ j) :
    tget 0 (hostWrite a bs s).hif.mem j = tget 0 s.hif.mem j := by
  apply tget_foldl_other (f := fun x : Byte × Nat => a + x.2) (g := fun x => x.1)
  rintro ⟨x, k⟩ hx
  have := List.snd_lt_of_mem_zipIdx hx
  omega

theorem hostWrite_wf (a : Nat) (bs : List Byte) (h : twf 0 s.hif.mem = true) : twf 0 (hostWrite a bs s).hif.mem = true :=
  twf_foldl_tset (fun x : Byte × Nat => a + x.2) (fun x => x.1) _ h

theorem dramWrite_frame (a : Nat) (bs : List Byte) (s : State) :
    dramWrite a bs s = { s with mem := { s.mem with dram := (dramWrite a bs s).mem.dram } } := rfl

theorem dramWrite_wf (a : Nat) (bs : List Byte) (h : twf 0 s.mem.dram = true) : twf 0 (dramWrite a bs s).mem.dram = true :=
  twf_foldl_tset (fun x : Byte × Nat => a + x.2) (fun x => x.1) _ h

/-! Rings and completions. -/

theorem setRing_frame (n : Nat) (r : Ring) (s : State) :
    setRing n r s = { s with hif := { s.hif with rings := (setRing n r s).hif.rings } } := rfl

theorem State.ring_type (s : State) (n : Nat) : (s.ring n).type = if n = 0 then 0 else if n = 1 then 1 else (tget {} s.hif.rings n).type := by
  unfold State.ring
  dsimp only
  split
  · rfl
  · split <;> rfl

/-- A ring reads back as it was set, with the TYPE of rings 0 and 1 fixed. -/
theorem setRing_ring_same (n : Nat) (r : Ring) (s : State) (h0 : n = 0 → r.type = 0) (h1 : n = 1 → r.type = 1) :
    (setRing n r s).ring n = r := by
  unfold State.ring setRing
  simp only [tget_tset_same]
  split
  · next h => rw [← h0 h]
  · split
    · next h => rw [← h1 h]
    · rfl

theorem setRing_ring_other (n m : Nat) (r : Ring) (s : State) (h : m ≠ n) : (setRing n r s).ring m = s.ring m := by
  unfold State.ring setRing
  simp only [tget_tset_other _ _ _ h]

theorem hostWrite_ring (a : Nat) (bs : List Byte) (s : State) (n : Nat) : (hostWrite a bs s).ring n = s.ring n := rfl

theorem writeBack_frame (n : Nat) (s : State) : writeBack n s = { s with hif := { s.hif with mem := (writeBack n s).hif.mem } } := rfl

theorem writeBack_ring (n m : Nat) (s : State) : (writeBack n s).ring m = s.ring m := rfl

theorem ringWrite_frame (n : Nat) (ws : List Nat) (s : State) :
    ringWrite n ws s = { s with hif := { s.hif with mem := (ringWrite n ws s).hif.mem, rings := (ringWrite n ws s).hif.rings } } := by
  unfold ringWrite
  dsimp only
  split <;> rfl

/-- The rings after a descriptor is written: its own is counted on. -/
theorem ringWrite_rings (n : Nat) (ws : List Nat) (s : State) : (ringWrite n ws s).hif.rings
    = (setRing n ({ s.ring n with pidx := ((s.ring n).pidx + 1) % 2 ^ 32, wbDue := (s.ring n).type ≠ 1 }.entry s.tick) s).hif.rings := by
  unfold ringWrite
  dsimp only
  split <;> rfl

theorem ring_of_rings {s t : State} (h : s.hif.rings = t.hif.rings) (n : Nat) : s.ring n = t.ring n := by
  unfold State.ring
  rw [h]

/-- A written descriptor counts the ring's PIDX on, and its signalling; the other rings keep theirs. -/
theorem ringWrite_ring (n : Nat) (ws : List Nat) (s : State) :
    (ringWrite n ws s).ring n = { s.ring n with pidx := ((s.ring n).pidx + 1) % 2 ^ 32, unsig := (s.ring n).unsig + 1
                                                firstAt := if (s.ring n).unsig = 0 then some s.tick else (s.ring n).firstAt
                                                wbDue := (s.ring n).type ≠ 1 }
    ∧ ∀ m ≠ n, (ringWrite n ws s).ring m = s.ring m := by
  constructor
  · rw [ring_of_rings (ringWrite_rings n ws s), setRing_ring_same]
    · rfl
    · intro h; subst h; rfl
    · intro h; subst h; rfl
  · intro m h
    rw [ring_of_rings (ringWrite_rings n ws s), setRing_ring_other _ _ _ _ h]

theorem ringWrite_wf (n : Nat) (ws : List Nat) (h : twf 0 s.hif.mem = true) : twf 0 (ringWrite n ws s).hif.mem = true := by
  unfold ringWrite
  dsimp only
  split
  · exact hostWrite_wf (s := setRing n _ (hostWrite _ _ s)) _ _ (hostWrite_wf _ _ h)
  · exact hostWrite_wf _ _ h

theorem postCompl_frame (n : Nat) (c : Compl) (s : State) :
    postCompl n c s = { s with hif := { s.hif with mem := (postCompl n c s).hif.mem, rings := (postCompl n c s).hif.rings } } := by
  unfold postCompl
  dsimp only
  split
  · exact ringWrite_frame ..
  · split <;> rfl

theorem postCompl_wf (n : Nat) (c : Compl) (h : twf 0 s.hif.mem = true) : twf 0 (postCompl n c s).hif.mem = true := by
  unfold postCompl
  dsimp only
  split
  · exact ringWrite_wf _ _ h
  · split <;> exact h

theorem arise_frame (n : Nat) (c : Compl) (s : State) :
    arise n c s = { s with hif := { s.hif with mem := (arise n c s).hif.mem, rings := (arise n c s).hif.rings, arisen := (arise n c s).hif.arisen } } := by
  unfold arise
  split
  · rfl
  · rw [postCompl_frame]

theorem arise_wf (n : Nat) (c : Compl) (h : twf 0 s.hif.mem = true) : twf 0 (arise n c s).hif.mem = true := by
  unfold arise
  split
  · exact h
  · exact postCompl_wf n c h

theorem sendMsix_frame (v : Nat) (s : State) :
    sendMsix v s = { s with hif := { s.hif with msix := (sendMsix v s).hif.msix, pba := (sendMsix v s).hif.pba } } := by
  unfold sendMsix
  split
  · rfl
  · split <;> rfl

/-- What an event posted to the EVT rings keeps: everything but host memory and the rings, and host memory's canonical form. -/
theorem postEvent_frame (kind : Nat) (ws : List Nat) (s : State) :
    (∃ m r, postEvent kind ws s = { s with hif := { s.hif with mem := m, rings := r } })
    ∧ (twf 0 s.hif.mem = true → twf 0 (postEvent kind ws s).hif.mem = true) := by
  unfold postEvent
  generalize List.range 64 = l
  induction l generalizing s with
  | nil => exact ⟨⟨_, _, rfl⟩, id⟩
  | cons n l ih =>
    simp only [List.foldl_cons]
    split
    · split
      · obtain ⟨⟨m, r, h⟩, hw⟩ := ih (ringWrite n ws s)
        exact ⟨⟨m, r, h.trans (by rw [ringWrite_frame])⟩, fun w => hw (ringWrite_wf _ _ w)⟩
      · obtain ⟨⟨m, r, h⟩, hw⟩ := ih (setRing n { s.ring n with waitE := (s.ring n).waitE ++ [ws] } s)
        exact ⟨⟨m, r, h.trans rfl⟩, fun w => hw w⟩
    · exact ih s

/-- A LOG record to one ring: written where there is room, else counted as dropped. -/
def logStep (src code : Nat) (data : List Nat) (s : State) (n : Nat) : State :=
  if (s.ring n).type ≠ 4 || !(s.ring n).live then s
  else if (s.ring n).room then
    ringWrite n (logWords s.dom.dev src code s.tick (s.ring n).dropped data) (setRing n { s.ring n with dropped := 0 } s)
  else setRing n { s.ring n with dropped := min ((s.ring n).dropped + 1) 65535 } s

theorem postLog_eq (src code : Nat) (data : List Nat) (s : State) :
    postLog src code data s = (List.range 64).foldl (logStep src code data) s := rfl

theorem logStep_frame (src code : Nat) (data : List Nat) (s : State) (n : Nat) :
    ∃ m r, logStep src code data s n = { s with hif := { s.hif with mem := m, rings := r } } := by
  unfold logStep
  split
  · exact ⟨_, _, rfl⟩
  · split
    · rw [ringWrite_frame]
      exact ⟨_, _, rfl⟩
    · exact ⟨_, _, rfl⟩

/-- What a LOG record keeps: everything but host memory and the rings. -/
theorem postLog_frame (src code : Nat) (data : List Nat) (s : State) :
    ∃ m r, postLog src code data s = { s with hif := { s.hif with mem := m, rings := r } } := by
  rw [postLog_eq]
  generalize List.range 64 = l
  induction l generalizing s with
  | nil => exact ⟨_, _, rfl⟩
  | cons n l ih =>
    obtain ⟨m, r, h⟩ := logStep_frame src code data s n
    obtain ⟨m', r', h'⟩ := ih (logStep src code data s n)
    exact ⟨m', r', by rw [List.foldl_cons, h', h]⟩

/-! The order of R341. -/

theorem placeByRing_perm {α : Type} (x : (Nat × Nat) × α) (l : List ((Nat × Nat) × α)) : (placeByRing x l).Perm (x :: l) := by
  induction l with
  | nil => exact .refl _
  | cons y t ih =>
    unfold placeByRing
    split
    · exact (ih.cons y).trans (.swap x y t)
    · exact .refl _

/-- What is brought into the order of ring and index is what was there. -/
theorem byRing_perm {α : Type} (l : List ((Nat × Nat) × α)) : (byRing l).Perm (l.map (·.2)) := by
  refine List.Perm.map _ ?_
  induction l with
  | nil => exact .refl _
  | cons x l ih => exact (placeByRing_perm x _).trans (ih.cons x)

/-- A completion touches host memory and the rings, what arose in the tick, the kept outcomes and completion frames, and what is to be
sent. -/
theorem complete_frame (o : Origin) (apply tag op dev status detail a b used : Nat) (s : State) :
    (∃ m r x c d n, complete o apply tag op dev status detail a b used s =
      { s with hif := { s.hif with mem := m, rings := r, arisen := x }, dom := { s.dom with cmds := c, doneFrames := d }, net := n })
    ∧ (twf 0 s.hif.mem = true → twf 0 (complete o apply tag op dev status detail a b used s).hif.mem = true) := by
  unfold complete
  split
  · dsimp only
    refine ⟨?_, fun w => arise_wf _ _ w⟩
    rw [arise_frame]
    exact ⟨_, _, _, _, _, _, rfl⟩
  · exact ⟨⟨s.hif.mem, s.hif.rings, s.hif.arisen, s.dom.cmds, _, _, rfl⟩, id⟩
  · exact ⟨⟨s.hif.mem, s.hif.rings, s.hif.arisen, s.dom.cmds, s.dom.doneFrames, s.net, rfl⟩, id⟩

/-- A ring command's completion is kept, one outcome at the end of the list. -/
theorem complete_ring_cmds (r i apply tag op dev status detail a b used : Nat) (s : State) :
    (complete (.ring r i) apply tag op dev status detail a b used s).dom.cmds = s.dom.cmds ++
      [{ ring := r, index := i, tag := tag, op := op, dev := dev, apply := apply, status := status, used := used, a := a % 2 ^ 32, b := b % 2 ^ 32,
         detail := detail }] := by
  unfold complete
  dsimp only
  rw [arise_frame]

theorem finishOpt_frame (j : Option Job) (status a b : Nat) (s : State) :
    (∃ m r x c d n, finishOpt j status a b s =
      { s with hif := { s.hif with mem := m, rings := r, arisen := x }, dom := { s.dom with cmds := c, doneFrames := d }, net := n })
    ∧ (twf 0 s.hif.mem = true → twf 0 (finishOpt j status a b s).hif.mem = true) := by
  unfold finishOpt
  split
  · exact complete_frame ..
  · exact ⟨⟨s.hif.mem, s.hif.rings, s.hif.arisen, s.dom.cmds, s.dom.doneFrames, s.net, rfl⟩, id⟩

/-! Flash (R357, R368, R376). -/

theorem fwDone_frame (c src dst len : Nat) (s : State) :
    fwDone c src dst len s = { s with mem := { s.mem with chans := (fwDone c src dst len s).mem.chans } } := rfl

theorem sendStream_frame (x : Stream) (s : State) : sendStream x s
    = { s with net := (send (.stream x) s).net, mem := { s.mem with chans := (sendStream x s).mem.chans } } := rfl

/-- A block that fails touches what counts it and what reports it. -/
theorem retireBlock_frame (a : Nat) (s : State) : retireBlock a s = { s with
    sys := (retireBlock a s).sys, rec_ := (retireBlock a s).rec_, causes := (retireBlock a s).causes
    mem := { s.mem with retired := (retireBlock a s).mem.retired, reserve := (retireBlock a s).mem.reserve } } := by
  unfold retireBlock
  dsimp only
  split
  · rw [addCause_frame]
    unfold storeError
    dsimp only
    rw [raise_frame]
    rfl
  · rfl

theorem retireBlocks_frame (l : List Nat) (s : State) : l.foldl (fun s b => retireBlock b s) s = { s with
    sys := (l.foldl (fun s b => retireBlock b s) s).sys, rec_ := (l.foldl (fun s b => retireBlock b s) s).rec_
    causes := (l.foldl (fun s b => retireBlock b s) s).causes
    mem := { s.mem with retired := (l.foldl (fun s b => retireBlock b s) s).mem.retired
                        reserve := (l.foldl (fun s b => retireBlock b s) s).mem.reserve } } := by
  induction l generalizing s with
  | nil => rfl
  | cons b l ih =>
    simp only [List.foldl_cons]
    rw [ih]
    have h := retireBlock_frame b s
    generalize retireBlock b s = t at h ⊢
    rw [h]

/-- Programming answers whether a good block was found for each that failed. -/
theorem program_ok (a n : Nat) (s : State) : (program a n s).1 = decide ((Config.badPages s.free n).length ≤ s.mem.reserve.toNat) := rfl

theorem program_frame (a n : Nat) (s : State) : (program a n s).2 = { s with
    sys := (program a n s).2.sys, rec_ := (program a n s).2.rec_, causes := (program a n s).2.causes, free := s.free + 1
    mem := { s.mem with chans := (program a n s).2.mem.chans, retired := (program a n s).2.mem.retired
                        reserve := (program a n s).2.mem.reserve } } := by
  unfold program
  dsimp only
  rw [retireBlocks_frame, fwDone_frame]

end Sys2Proof.Machine
end

