-- ==== Sys2Proof/Laws/Keeps.lean ====
section
/-! SUPPORT. Keeping the module's invariant, as a relation between two states that composes, with the shared operations in it. -/

namespace Sys2Proof.Machine

/-- From `s` to `t` the queue stands and the module's invariant is kept. -/
structure Keeps (s t : State) : Prop where
  pending : t.pending = s.pending
  inv : ModuleInv s → ModuleInv t

namespace Keeps

variable {s t u : State}

theorem refl (s : State) : Keeps s s := ⟨rfl, id⟩

theorem trans (h : Keeps s t) (k : Keeps t u) : Keeps s u := ⟨k.pending.trans h.pending, fun i => k.inv (h.inv i)⟩

/-- What touches neither memory nor the mode nor the number of panels and ports. -/
theorem leaf (h1 : t.pending = s.pending) (h2 : t.hif.mem = s.hif.mem) (h3 : t.mem.dram = s.mem.dram) (h4 : t.sys.mode = s.sys.mode)
    (h5 : t.panels.length = s.panels.length) (h6 : t.net.ports.length = s.net.ports.length) : Keeps s t := by
  refine ⟨h1, fun ⟨a, b, c, d, e⟩ => ⟨?_, h4 ▸ b, h4 ▸ c, h5 ▸ d, h6 ▸ e⟩⟩
  simpa [Memory.wf, h2, h3] using a

theorem foldl {α : Type} {f : State → α → State} (l : List α) (hf : ∀ s x, Keeps s (f s x)) (s : State) : Keeps s (l.foldl f s) := by
  induction l generalizing s with
  | nil => exact refl s
  | cons x l ih => exact (hf s x).trans (ih _)

theorem when_ {b : Bool} {f : State → State} (h : Keeps s (f s)) : Keeps s (when_ b f s) := by
  cases b
  · exact refl s
  · exact h

theorem raiseModes (cause mb ma dw4 dw5 : Nat) (s : State) : Keeps s (raiseModes cause mb ma dw4 dw5 s) := by
  rw [raiseModes_frame]
  exact leaf rfl rfl rfl rfl rfl rfl

theorem raise (cause dw4 dw5 : Nat) (s : State) : Keeps s (raise cause dw4 dw5 s) := raiseModes ..

theorem setMode {m : Nat} (h1 : 1 ≤ m) (h2 : m ≤ 12) (s : State) : Keeps s (setMode m s) := by
  have h := setMode_mode m s
  rw [setMode_frame] at h ⊢
  exact ⟨rfl, fun ⟨a, _, _, d, e⟩ => ⟨a, by simp_all, by simp_all, d, e⟩⟩

theorem addCause (c : Cause) (s : State) : Keeps s (addCause c s) := by
  have h := addCause_mode c s
  rw [addCause_frame] at h ⊢
  dsimp only at h
  refine ⟨rfl, fun ⟨a, b, k, d, e⟩ => ⟨a, ?_, ?_, d, e⟩⟩ <;> dsimp only <;> rw [h] <;> split <;> omega

theorem delCauses (p : Cause → Bool) (s : State) : Keeps s (delCauses p s) := by
  have h := delCauses_mode p s
  rw [delCauses_frame] at h ⊢
  dsimp only at h
  refine ⟨rfl, fun ⟨a, b, k, d, e⟩ => ⟨a, ?_, ?_, d, e⟩⟩ <;> dsimp only <;> rw [h] <;> split <;> omega

theorem delCause (c : Cause) (s : State) : Keeps s (delCause c s) := delCauses ..

theorem modDec (f : Dec → Dec) (s : State) : Keeps s (modDec f s) := leaf rfl rfl rfl rfl rfl rfl

theorem withDom (f : Dom → Dom) (s : State) : Keeps s (withDom f s) := leaf rfl rfl rfl rfl rfl rfl

theorem withEng (f : Eng → Eng) (s : State) : Keeps s (withEng f s) := leaf rfl rfl rfl rfl rfl rfl

theorem withField (f : Field → Field) (s : State) : Keeps s (withField f s) := leaf rfl rfl rfl rfl rfl rfl

theorem modPanel (i : Nat) (f : Panel → Panel) (s : State) : Keeps s (modPanel i f s) :=
  leaf rfl rfl rfl rfl (List.length_set ..) rfl

theorem send (f : Frame) (s : State) : Keeps s (send f s) := leaf rfl rfl rfl rfl rfl (by
  rw [send_frame]
  dsimp only
  split
  · rfl
  · exact congrArg _ (Net.send_ports ..))

theorem violate (k : Nat) (w b : Bool) (o : Nat) (s : State) : Keeps s (violate k w b o s) := leaf rfl rfl rfl rfl rfl rfl

theorem setRing (n : Nat) (r : Ring) (s : State) : Keeps s (setRing n r s) := leaf rfl rfl rfl rfl rfl rfl

theorem hostWrite (a : Nat) (bs : List Byte) (s : State) : Keeps s (hostWrite a bs s) := by
  refine ⟨rfl, fun ⟨m, b, c, d, e⟩ => ⟨?_, b, c, d, e⟩⟩
  simp only [Memory.wf, Bool.and_eq_true] at m ⊢
  exact ⟨hostWrite_wf _ _ m.1, m.2⟩

theorem dramWrite (a : Nat) (bs : List Byte) (s : State) : Keeps s (dramWrite a bs s) := by
  refine ⟨rfl, fun ⟨m, b, c, d, e⟩ => ⟨?_, b, c, d, e⟩⟩
  simp only [Memory.wf, Bool.and_eq_true] at m ⊢
  exact ⟨m.1, dramWrite_wf _ _ m.2⟩

theorem writeBack (n : Nat) (s : State) : Keeps s (writeBack n s) := hostWrite ..

theorem ringWrite (n : Nat) (ws : List Nat) (s : State) : Keeps s (ringWrite n ws s) := by
  unfold Machine.ringWrite
  dsimp only
  split
  · exact (hostWrite ..).trans ((setRing ..).trans (writeBack ..))
  · exact (hostWrite ..).trans (setRing ..)

theorem flushShadows (s : State) : Keeps s (flushShadows s) := by
  refine foldl _ (fun s n => ?_) s
  dsimp only
  split
  · exact (setRing ..).trans (writeBack ..)
  · exact refl s

theorem postCompl (n : Nat) (c : Compl) (s : State) : Keeps s (postCompl n c s) := by
  unfold Machine.postCompl
  dsimp only
  split
  · exact ringWrite ..
  · split
    · exact setRing ..
    · exact refl s

theorem arise (n : Nat) (c : Compl) (s : State) : Keeps s (arise n c s) := by
  unfold Machine.arise
  split
  · exact leaf rfl rfl rfl rfl rfl rfl
  · exact postCompl ..

theorem sendMsix (v : Nat) (s : State) : Keeps s (sendMsix v s) := by
  rw [sendMsix_frame]
  exact leaf rfl rfl rfl rfl rfl rfl

theorem postEvent (kind : Nat) (ws : List Nat) (s : State) : Keeps s (postEvent kind ws s) := by
  refine foldl _ (fun s n => ?_) s
  dsimp only
  split
  · split
    · exact ringWrite ..
    · exact setRing ..
  · exact refl s

theorem postLog (src code : Nat) (data : List Nat) (s : State) : Keeps s (postLog src code data s) := by
  refine foldl _ (fun s n => ?_) s
  dsimp only
  split
  · exact refl s
  · split
    · exact (setRing ..).trans (ringWrite ..)
    · exact setRing ..

theorem firmwareLog (s : State) : Keeps s (firmwareLog s) := by
  unfold Machine.firmwareLog
  split
  · exact foldl _ (fun s i => postLog ..) s
  · exact refl s

theorem complete (o : Origin) (apply tag op dev status detail a b used : Nat) (s : State) :
    Keeps s (complete o apply tag op dev status detail a b used s) := by
  unfold Machine.complete
  split
  · exact (arise ..).trans (leaf rfl rfl rfl rfl rfl rfl)
  · refine Keeps.trans ?_ (send ..)
    exact leaf rfl rfl rfl rfl rfl rfl
  · exact refl s

theorem finishJob (j : Job) (status a b : Nat) (s : State) : Keeps s (finishJob j status a b s) := complete ..

theorem finishOpt (j : Option Job) (status a b : Nat) (s : State) : Keeps s (finishOpt j status a b s) := by
  unfold Machine.finishOpt
  split
  · exact complete ..
  · exact refl s

/-! Entering a mode. -/

theorem abandonAudit (s : State) : Keeps s (abandonAudit s) := by
  unfold Machine.abandonAudit
  split
  · exact (withEng ..).trans ((raise ..).trans ((finishOpt ..).trans (dropPast _)))
  · exact refl s
where
  dropPast (s : State) : Keeps s (dropPast s) := by
    unfold Machine.dropPast
    split
    · exact refl s
    · exact leaf rfl rfl rfl rfl rfl rfl

theorem dropRepeat (s : State) : Keeps s (dropRepeat s) := by
  unfold Machine.dropRepeat
  split
  · exact (withEng ..).trans ((raise ..).trans ((finishOpt ..).trans (abandonAudit.dropPast _)))
  · exact refl s

theorem endMeasurements (s : State) : Keeps s (endMeasurements s) := by
  unfold Machine.endMeasurements
  dsimp only
  refine Keeps.trans ?_ (withField ..)
  split
  · refine Keeps.trans ?_ (finishJob ..)
    split
    · exact leaf rfl rfl rfl rfl rfl rfl
    · exact refl s
  · split
    · exact leaf rfl rfl rfl rfl rfl rfl
    · exact refl s

theorem leaveMode (m : Nat) (s : State) : Keeps s (leaveMode m s) :=
  (when_ (endMeasurements _)).trans ((when_ ((abandonAudit _).trans (dropRepeat _))).trans ((when_ (modDec ..)).trans ((when_ (modDec ..)).trans (when_ (withField ..)))))

theorem stageMode (s : State) : Keeps s (stageMode s) := by
  unfold Machine.stageMode
  dsimp only
  repeat' split
  all_goals first
    | exact refl s
    | exact leaf rfl rfl rfl rfl rfl rfl

theorem shedPanel (m was : Nat) (s : State) : Keeps s (shedPanel m was s) :=
  (when_ (f := Machine.modPanel 0 _) (modPanel ..)).trans (when_ (f := Machine.modPanel 0 _) (modPanel ..))

theorem enterSync (s : State) : Keeps s (enterSync s) := leaf rfl rfl rfl rfl rfl rfl

theorem enterMode {m : Nat} (h1 : 1 ≤ m) (h2 : m ≤ 12) (s : State) : Keeps s (enterMode m s) := by
  unfold Machine.enterMode
  split
  · exact refl s
  · exact (leaveMode m s).trans ((setMode h1 h2 _).trans ((shedPanel ..).trans ((when_ (enterSync _)).trans (stageMode _))))

theorem secondFault (k n : Nat) (s : State) : Keeps s (secondFault k n s) := by
  have h : Keeps s (Machine.raise 0x9F k n (keepStatus s)) := (leaf (s := s) (t := Machine.keepStatus s) rfl rfl rfl rfl rfl rfl).trans (raise ..)
  unfold Machine.secondFault
  dsimp only
  split
  · exact h
  · exact h.trans (enterMode (m := 12) (by omega) (by omega) _)

theorem regWrite {off : Nat} {f : State → State} (h : Keeps s (f s)) : Keeps s (regWrite off f s) := by
  unfold Machine.regWrite
  split
  · exact refl s
  · split
    · exact violate ..
    · exact h

theorem servingWrite {off : Nat} {f : State → State} (h : Keeps s (f s)) : Keeps s (servingWrite off f s) := by
  apply regWrite
  split
  · exact h
  · exact violate ..

theorem fwDone (c src dst len : Nat) (s : State) : Keeps s (fwDone c src dst len s) := leaf rfl rfl rfl rfl rfl rfl

theorem sendStream (x : Stream) (s : State) : Keeps s (sendStream x s) := (send ..).trans (fwDone ..)

theorem retireBlock (a : Nat) (s : State) : Keeps s (retireBlock a s) := by
  have k : Keeps s (withMem (fun m => { m with retired := m.retired + 1, reserve := BitVec.ofNat 16 (s.mem.reserve.toNat - 1) }) s) :=
    leaf rfl rfl rfl rfl rfl rfl
  have e (b : Nat) (u : State) : Keeps u (storeError .reserve b u) :=
    (leaf rfl rfl rfl rfl rfl rfl : Keeps u (withMem (fun m => { m with reserve := if m.reserve.toNat < 16 then m.reserve else 15 }) u)).trans (raise ..)
  unfold Machine.retireBlock
  dsimp only
  split
  · exact k.trans ((e a _).trans (addCause ..))
  · exact k

theorem program (a n : Nat) (s : State) : Keeps s (program a n s).2 := by
  have k := foldl (Config.badPages s.free n) (fun s b => retireBlock b s) s
  have f := retireBlocks_frame (Config.badPages s.free n) s
  exact k.trans (leaf (by rw [f]; rfl) (by rw [f]; rfl) rfl rfl (by rw [f]; rfl) (by rw [f]; rfl))

end Keeps

/-- Programming flash changes only what it may. -/
theorem program_programs (a n : Nat) (s : State) : s.programs (program a n s).2 := by
  have h := program_frame a n s
  unfold State.programs
  rw [h]

end Sys2Proof.Machine
end

