-- ==== Sys2Proof/Laws/Reach.lean ====
section
/-! SUPPORT. What a register access does when it reaches its register, and what a refused one does. -/

namespace Sys2Proof.Machine

variable {s : State} {off : Nat}

theorem State.opens_iff : s.opens off = true ↔ s.path = true ∧ windowOpen s.sys.mode off = true := by
  simp [State.opens]

theorem regWrite_opens {f : State → State} (h : s.opens off = true) : regWrite off f s = f s := by
  obtain ⟨h1, h2⟩ := State.opens_iff.mp h
  simp [regWrite, h1, h2]

theorem servingWrite_opens {f : State → State} (h : s.opens off = true) (hm : s.master = true) : servingWrite off f s = f s := by
  rw [servingWrite, regWrite_opens h, if_pos hm]

theorem servingWrite_refused {f : State → State} (h : s.opens off = true) (hm : s.master = false) :
    servingWrite off f s = violate 4 true false off s := by
  rw [servingWrite, regWrite_opens h]
  simp [hm]

theorem regRead_opens {f : State → State} (h : s.opens off = true) : regRead off f s = f s := by
  obtain ⟨h1, h2⟩ := State.opens_iff.mp h
  simp [regRead, h1, h2]

theorem bit_getLsbD {w : Nat} (v : BitVec w) (k : Nat) : bit v.toNat k = v.getLsbD k := by
  simp [bit, BitVec.getLsbD, Nat.testBit_eq_decide_div_mod_eq]

theorem clampI_eq {lo hi : Int} (x : Int) (h : lo ≤ hi) : clampI lo hi x = max lo (min hi x) := by
  unfold clampI
  split <;> (try split) <;> omega

end Sys2Proof.Machine
end

