-- ==== Sys2Proof/WellFormed.lean ====
section
/-! DEFINITION. Well-formed commands: operands within what their happening can carry. The meanings are total and do not ask
for it. -/

namespace Sys2Proof

open Sys2Proof.Machine

def below (n : Nat) (l : List Nat) : Bool := l.all (· < n)
def risingKeys {α : Type} (n : Nat) (t : Tbl α) : Bool := (t.map (·.1)).Pairwise (· < ·) && below n (t.map (·.1))

/-- Conversions of one quantiser in a window: at most its 20 480 (R95). -/
def runsWf (l : List (Nat × Int)) : Bool := l.foldl (fun a x => a + x.1) 0 ≤ 20480

/-- A window names each cell, channel and output at most once, and counts conversions and changes in SAMPLE cycles. -/
def Window.wf (w : Window) : Bool :=
  risingKeys 64 w.cells && risingKeys 32 w.dio && risingKeys 8 w.lout && w.lp.length = 5 && below 65536 w.lp
    && (w.cells.all fun c => runsWf c.2.prim && runsWf c.2.shad)
    && (w.dio.all fun d => (d.2.changes.map (·.1)).Pairwise (· < ·) && below 20480 (d.2.changes.map (·.1)))
    && w.lampMv.length ≤ 16 && w.lampUa.length = w.lampMv.length && w.feedMv.length ≤ 2

/-- Header fields within their widths (R295). -/
def Hdr.wf (h : Hdr) : Bool :=
  h.type < 256 && h.cls < 4 && h.seg < 256 && h.dom < 65536 && h.src < 256 && h.dst < 256 && h.level < 65536 && h.tick < 2 ^ 48
    && h.len < 65536 && h.rx < 65536 && h.port < 2 && h.sa < 2 ^ 48 && h.hsr.all (· < 65536) && h.rsv < 2 ^ 32

def JoinReq.wf (r : JoinReq) : Bool :=
  r.mac < 2 ^ 48 && r.role < 256 && r.dev < 256 && r.plMin < 65536 && r.plMax < 65536 && r.epochHeld < 2 ^ 64 && r.epochStaged < 2 ^ 64

def JoinResp.wf (r : JoinResp) : Bool := r.result < 256 && r.dev < 256 && r.level < 65536 && r.admitAt < 2 ^ 48 && r.epochId < 2 ^ 64

def Compl.wf (c : Compl) : Bool :=
  c.tag < 65536 && c.op < 256 && c.dev < 64 && c.ring < 64 && c.status < 65536 && c.detail < 256 && c.used < 2 ^ 48 && c.a < 2 ^ 32 && c.b < 2 ^ 32

def Bulk.wf (b : Bulk) : Bool :=
  b.op < 256 && b.chan < 256 && b.xid < 65536 && b.status < 65536 && b.addr < 2 ^ 64 && b.ofs < 2 ^ 32 && b.rlen < 2 ^ 32 && b.data.length ≤ 1024

/-- What a channel has moved: at least what it has written was read. -/
def moved (data : List Byte) (wr : Nat) : Bool := data.length < 2 ^ 32 && wr < 2 ^ 32

def Instr.wf : Instr → Bool
  | .tickEdge w => Window.wf w
  | .epochSwitch stuck => stuck.Nodup
  | .gustSegment h p _ => Hdr.wf h && p.length ≤ 1178
  | .digestReceive h p => Hdr.wf h && p.length ≤ 596
  | .commandFrame h _ _ => Hdr.wf h
  | .completionFrame h _ c => Hdr.wf h && Compl.wf c
  | .joinRequest h r => Hdr.wf h && JoinReq.wf r
  | .joinResponse h r => Hdr.wf h && JoinResp.wf r
  | .statusFrame h b => Hdr.wf h && b.length = 512
  | .managerStream h _ => Hdr.wf h
  | .bulkFrame h b => Hdr.wf h && Bulk.wf b
  | .supervisionFrame _ x => x.mac < 2 ^ 48
  | .ptpSyncReceive _ x _ _ _ => x.src < 2 ^ 48
  | .frameForward _ src _ _ _ len x => src < 2 ^ 48 && len ≤ 1600 && x.us < 1000
  | .cableTestDone _ pairs => pairs.length = 4
  | .resetRelease ratios _ => ratios.length = 4 && ratios.all (· ≤ 1000)
  | .dioProtectionOff (.bank _ _ ma) => ma.length = 8
  | .surveyDone pins pairs => below 64 (pins.map (·.pin)) && pairs.all fun p => p.a < p.b && p.b < 64
  | .dmaPause _ data wr => moved data wr
  | .dmaChAbort _ _ data wr => moved data wr
  | .dmaChPauseSet _ _ data wr => moved data wr
  | .dmaChPauseClear _ _ data wr => moved data wr
  | .dmaTransferDone _ data => moved data 0
  | .dmaReadFailure _ data _ => moved data 0
  | .eccCorrected _ b => b.block.length = 40 && !b.detectOnly
  | .scrubPass x => x.found.all fun x => x.2.block.length = 40
  | .uncorrectableError x b => x = .reserve || b.block.length = 40
  | .registerWrite space off _ _ _ => space = .bar0 || off.toNat < 0x1000
  | .panelFrame _ rails => rails.length = 4
  | .railCheck _ rails => rails.length = 4
  | _ => true

end Sys2Proof
end

