-- ==== Sys2Proof/Tests/Slice0.lean ====
section
/-! SUPPORT. Tests: well-formedness refuses an ill-formed command for each of its checks; the manual's worked examples; and for
every statement with hypotheses, states and operands that meet them, clause by clause. -/

open Sys2Proof Sys2Proof.Machine

namespace Sys2Proof.Tests

/-! One theorem at a time: the kernel evaluations side by side would need more threads than the check's memory allows. -/
set_option Elab.async false

/-! Well-formed commands. -/

def hdr : Hdr := { type := 1, cls := 0, seg := 0, dom := 1, src := 0, dst := 0xFF, level := 1, tick := 0, len := 1178, rx := 1178, port := 0 }

theorem test_wf_window : (Instr.tickEdge {}).wf = true ∧ (Instr.tickEdge { lp := [1, 2, 3, 4] }).wf = false
    ∧ (Instr.tickEdge { lp := [1, 2, 3, 4, 65536] }).wf = false ∧ (Instr.tickEdge { cells := [(64, {})] }).wf = false
    ∧ (Instr.tickEdge { cells := [(3, {}), (3, {})] }).wf = false ∧ (Instr.tickEdge { dio := [(32, {})] }).wf = false
    ∧ (Instr.tickEdge { lout := [(8, {})] }).wf = false ∧ (Instr.tickEdge { cells := [(0, { prim := [(20480, 5), (1, 5)] })] }).wf = false
    ∧ (Instr.tickEdge { dio := [(0, { changes := [(5, 0), (5, 1)] })] }).wf = false
    ∧ (Instr.tickEdge { lampMv := List.replicate 17 0, lampUa := List.replicate 17 0 }).wf = false ∧ (Instr.tickEdge { lampMv := [1] }).wf = false ∧ (Instr.tickEdge { feedMv := [0, 0, 0] }).wf = false := by decide +kernel

theorem test_wf_frames : (Instr.gustSegment hdr [] 0).wf = true ∧ (Instr.gustSegment { hdr with port := 2 } [] 0).wf = false
    ∧ (Instr.gustSegment hdr (List.replicate 1179 0) 0).wf = false ∧ (Instr.digestReceive { hdr with cls := 4 } []).wf = false ∧ (Instr.gustSegment { hdr with sa := 2 ^ 48 } [] 0).wf = false
    ∧ (Instr.gustSegment { hdr with hsr := some 65536 } [] 0).wf = false ∧ (Instr.gustSegment { hdr with rsv := 2 ^ 32 } [] 0).wf = false
    ∧ (Instr.digestReceive hdr (List.replicate 597 0)).wf = false ∧ (Instr.statusFrame hdr []).wf = false
    ∧ (Instr.statusFrame hdr (List.replicate 512 0)).wf = true ∧ (Instr.commandFrame { hdr with type := 256 } 0 { ring := 0, op := 1 }).wf = false
    ∧ (Instr.managerStream { hdr with tick := 2 ^ 48 } (.role { tick := 0 })).wf = false := by decide +kernel

theorem test_wf_contents :
    (Instr.completionFrame hdr 0 { tag := 65536, op := 1, dev := 0, status := 0, used := 0 }).wf = false
    ∧ (Instr.joinRequest hdr { mac := 2 ^ 48, role := 3, dev := 2, plMin := 1, plMax := 1, epochHeld := 0, epochStaged := 0 }).wf = false
    ∧ (Instr.joinResponse hdr { result := 0, dev := 256, level := 1, admitAt := 0, epochId := 0 }).wf = false
    ∧ (Instr.bulkFrame hdr { op := 4, chan := 0, xid := 65536 }).wf = false
    ∧ (Instr.bulkFrame hdr { op := 4, chan := 0, xid := 0, data := List.replicate 1025 0 }).wf = false
    ∧ (Instr.supervisionFrame 0 { mac := 2 ^ 48 }).wf = false ∧ (Instr.ptpSyncReceive 0 { src := 2 ^ 48, seq := 0 } 0 0 0).wf = false ∧ (Instr.frameForward 0 0 0 0 false 64 { us := 1000 }).wf = false
    ∧ (Instr.frameForward 0 0 0 0 false 1601 {}).wf = false ∧ (Instr.frameForward 0 (2 ^ 48) 0 0 false 64 {}).wf = false := by decide +kernel

theorem test_wf_others : (Instr.epochSwitch [(1, 2), (1, 2)]).wf = false ∧ (Instr.cableTestDone 0 []).wf = false
    ∧ (Instr.resetRelease [0, 0, 0] true).wf = false ∧ (Instr.resetRelease [0, 0, 0, 1001] true).wf = false
    ∧ (Instr.dioProtectionOff (.bank 0 2000 [0])).wf = false ∧ (Instr.surveyDone [{ pin := 64 }] []).wf = false
    ∧ (Instr.surveyDone [] [{ a := 5, b := 5 }]).wf = false ∧ (Instr.eccCorrected (.record 0) { addr := 0 }).wf = false ∧ (Instr.eccCorrected (.record 0) { addr := 0, block := List.replicate 40 0, detectOnly := true }).wf = false
    ∧ (Instr.scrubPass { which := 1, found := [(.record 0, { addr := 0 })] }).wf = false ∧ (Instr.scrubPass { which := 1, found := [(.record 0, { addr := 0, block := List.replicate 40 0 })] }).wf = true ∧ (Instr.uncorrectableError (.record 0) { addr := 0 }).wf = false
    ∧ (Instr.dmaPause { ring := 0, op := 0x51 } [] (2 ^ 32)).wf = false ∧ (Instr.dmaChAbort 0 0 [] (2 ^ 32)).wf = false
    ∧ (Instr.dmaChPauseSet 0 0 [] (2 ^ 32)).wf = false ∧ (Instr.dmaChPauseClear 0 0 [] (2 ^ 32)).wf = false
    ∧ (Instr.registerWrite .bar2 0x1000 4 false 0).wf = false ∧ (Instr.registerWrite .cfg 0x1000 4 false 0).wf = false ∧ (Instr.registerWrite .bar0 0x1000 4 false 0).wf = true ∧ (Instr.dmaTransferDone 0 []).wf = true ∧ (Instr.supervisionFrame 0 { mac := 0 }).wf = true
    ∧ (Instr.panelFrame 0 []).wf = false ∧ (Instr.railCheck 0 [0, 0, 0]).wf = false := by decide +kernel

/-! Worked values. -/

/-- The SHA-256 of the empty string begins e3 b0 c4 42 (the published standard that R379 names). -/
theorem test_sha256_empty : (sha256 []).take 4 = [0xe3, 0xb0, 0xc4, 0x42] := by decide +kernel

/-- R468: a copy of the option block reads back as it was written, and not under another MAGIC. -/
theorem test_option_block_reads_back :
    readOpt optMagic (encOpt optMagic { seq := 0xFFFF, setB := true, devNum := 63, domain := 0xFFFE }) = some { seq := 0xFFFF, setB := true, devNum := 63, domain := 0xFFFE }
    ∧ readOpt overrideMagic (encOpt optMagic {}) = none := by decide +kernel

/-- R426, R429: DUTY 128 reaches the last 500 µs of the tick, DUTY 127 does not. -/
theorem test_lamp_late : lampLate 128 = true ∧ lampLate 127 = false := by decide +kernel

/-- Ties away from zero (R119). -/
theorem test_divr_ties : divr 5 2 = 3 ∧ divr (-5) 2 = -3 ∧ divr 7 3 = 2 ∧ fdiv (-7) 2 = -4 := by decide +kernel

/-- Sea-water flow through an orifice (04, worked example): 8 mA is half flow, 4.0016 mA just computed, 4 mA cut off. -/
def flow : Characteristic := { type := 2, input := 2, engMin := 0, engMax := 120000, body := .sqrt 4000000 16000000 107374 0 120000 }

theorem test_orifice : applyChar flow 8000000 = some 60000 ∧ applyChar flow 4001600 = some 1200 ∧ applyChar flow 4001599 = some 0
    ∧ scaledV (5242880 + 2 * 2 ^ 24) = 335544320 ∧ divr (335544320 * 200000) (2 ^ 23) = 8000000 := by decide +kernel

/-- The loop bands of the oil-pressure transmitter (05, worked example). -/
theorem test_loop_bands : ne43Band 12000000 = 0 ∧ ne43Band 3700000 = 1 ∧ ne43Band 3500000 = 3 ∧ ne43Band 0 = 3 := by decide +kernel

/-- The speed repeat (05 and 06, worked examples): 90 rpm is 18.4 mA, and 7 500 000 mHz. -/
theorem test_speed_repeat : loutUa { enable := true, eLo := 0, eHi := 100000 } 90000 = 18400
    ∧ repeatVal { eLo := 0, eHi := 120000, fLo := 0, fHi := 10000000 } 90000 = 7500000 := by decide +kernel

/-- Lubricating oil pressure (07, worked example): point 120 of device 5. -/
def oil : PointCfg := { cond := 2, srcKind := 1, limLo := 2500, deadband := 200, onDelay := 3, inhKind := 2, inhRef := 256, inhInv := true, inhDelay := 20, prio := 2 }
def bar (e : Int) : Reading := { fault := none, x := e, eng := e, word := 0 }

/-- Tick T + 22: the inhibit ends and TIMER counts; T + 25: C fails and TIMER is cleared. -/
theorem test_oil_start :
    (let t := (pointEval oil 22 120 2 (bar 1800) 0 false { supp := true, state := 4, inhCnt := 20 }).1; t.state = 0 ∧ t.supp = false ∧ t.timer = 1)
    ∧ (let t := (pointEval oil 25 120 2 (bar 2600) 0 false { timer := 3 }).1; t.state = 0 ∧ t.timer = 0)
    ∧ (pointEval oil 25 120 2 (bar 2499) 0 false { timer := 3 }).1.state = 1 := by decide +kernel

/-- Tick M + 2: a broken wire during the delay, 0 to 7; M + 5 000: wire repaired, 8 to 0 with TIMER 1. -/
theorem test_oil_fault :
    (let t := (pointEval oil 2 120 2 { bar 0 with fault := some 0x27 } 0 false { timer := 2 }).1; t.state = 7 ∧ t.fcause = 0x27 ∧ t.timer = 0 ∧ t.u = true)
    ∧ (let t := (pointEval oil 5000 120 2 (bar 2300) 0 false { f := true, state := 8, fcause := 0x27 }).1; t.state = 0 ∧ t.timer = 1 ∧ t.f = false) := by
  decide +kernel

/-! States the witnesses start from: a standalone module with its host's path open, and a serving module in the domain. -/

def up (m : Nat) : State :=
  { State.reset with
    sys := { State.reset.sys with mode := m, role := 0, presentA := true, presentB := true, rstCause := 1 }
    time := { State.reset.time with num := 1000, domain := true }
    hif := { State.reset.hif with released := true } }

def served (m : Nat) : State :=
  let s := up m
  { s with sys := { s.sys with role := 1 }, dom := { s.dom with serving := true, dev := 0 } }

def worker (m : Nat) : State :=
  let s := up m
  { s with sys := { s.sys with role := 3 }, hif := { s.hif with released := false } }

def at_ (phase : Nat) (s : State) : State := { s with time := { s.time with phase := phase } }
def rtcOf (f : Rtc → Rtc) (s : State) : State := { s with rtc := f s.rtc }
def epochOf (e : Epoch) (s : State) : State := { s with cfg := { s.cfg with e := e, has := true } }
def fieldOf (f : Field → Field) (s : State) : State := { s with field := f s.field }
def domOf (f : Dom → Dom) (s : State) : State := { s with dom := f s.dom }
def blockAt (n : Nat) (s : State) : State := { s with rec_ := { s.rec_ with block := some { tick := n } } }

/-! Witnesses: the machine and the backup domain. -/

theorem witness_StepRunsFront : ({ up 9 with pending := [.oscStop] } : State).pending = .oscStop :: [] ∧ (up 9).pending = [] := by decide +kernel

theorem witness_StepKeepsInv : ModuleInv (up 9) ∧ ∃ t, step (up 9) = .next t := ⟨by unfold ModuleInv; decide +kernel, _, rfl⟩

def fullGust : Gust :=
  { tick := 2 ^ 48 - 1, epochId := 2 ^ 64 - 1, pendApply := 2 ^ 48 - 1, digestRx := 2 ^ 64 - 1, pendId := 2 ^ 64 - 1
    pub := [(0, 0), (8191, 14)], dgrp := [(0, 1), (1023, 3)], sess := [(63, 65535)]
    inputs := List.replicate 8 { opcode := 255, targetDev := 255, target := 65535, locDev := 255, locInput := 255, tag := 65535, arg := 2 ^ 32 - 1, reqTick := 2 ^ 32 - 1 } }

theorem witness_GustRoundTrip : fullGust.tick < 2 ^ 48 ∧ fullGust.epochId < 2 ^ 64 ∧ fullGust.pendApply < 2 ^ 48 ∧ fullGust.digestRx < 2 ^ 64
    ∧ fullGust.pendId < 2 ^ 64 ∧ twf 15 fullGust.pub = true ∧ (∀ x ∈ fullGust.pub, x.1 < 8192 ∧ x.2 < 16) ∧ twf 0 fullGust.dgrp = true
    ∧ (∀ x ∈ fullGust.dgrp, x.1 < 1024 ∧ x.2 < 4) ∧ twf 0 fullGust.sess = true ∧ (∀ x ∈ fullGust.sess, x.1 < 64 ∧ x.2 < 2 ^ 16)
    ∧ fullGust.inputs.length ≤ 8 ∧ ∀ i ∈ fullGust.inputs, i.opcode < 256 ∧ i.targetDev < 256 ∧ i.target < 2 ^ 16 ∧ i.locDev < 256 ∧ i.locInput < 256
      ∧ i.tag < 2 ^ 16 ∧ i.arg < 2 ^ 32 ∧ i.reqTick < 2 ^ 32 := by decide +kernel

theorem witness_Arithmetic : (0 : Int) < 2 ∧ 2 * (divr 5 2 * 2 - 5).natAbs = (2 : Int).natAbs ∧ 1 ≤ 1 ∧ (0 : Int) ≤ 2 ^ 128 - 1 ∧ (2 : Int) ^ 128 - 1 < 2 ^ 128 := by
  decide +kernel

def halted : State := rtcOf (fun r => { r with halt := true }) (up 9)

theorem witness_RtcWrites_pairs : halted.opens 0x0C0C = true ∧ halted.rtc.halt = true ∧ (up 9).opens 0x0C0C = true ∧ (up 9).rtc.halt = false
    ∧ (up 9).opens 0x0C1C = true := by decide +kernel

theorem witness_RtcControl : (up 9).opens 0x0C00 = true ∧ (1 : Word).getLsbD 0 = true ∧ (up 9).rtc.halt = false
    ∧ halted.opens 0x0C00 = true ∧ (0 : Word).getLsbD 0 = false ∧ halted.rtc.halt = true ∧ halted.pending = []
    ∧ (4 : Word).getLsbD 2 = true ∧ (4 : Word).getLsbD 0 = false ∧ (up 9).rtc.cmpEn = false ∧ (up 9).rtc.fired = false := by decide +kernel

def trimmed : State := rtcOf (fun r => { r with trim := -8192, acc := -15999999, cnt := 2 ^ 48 - 1 }) (up 9)

theorem witness_TrimRate : trimmed.sys.mode ≠ 1 ∧ trimmed.rtc.halt = false ∧ trimmed.rtc.cnt < 2 ^ 48 ∧ trimmed.rtc.trim.natAbs ≤ 8192
    ∧ trimmed.rtc.acc.natAbs < 16000000 := by decide +kernel

theorem witness_RtcWrites_setup : (up 5).opens 0x0C24 = true ∧ (up 5).opens 0x0C20 = true ∧ (up 5).opens 0x0C2C = true := by decide +kernel

def armed : State := rtcOf (fun r => { r with cmpEn := true, wakeEn := true, period := 1, cnt := 7, cmp := Pair.of 7 }) (up 9)
def shadowed (age : Nat) : State := rtcOf (fun r => { r with shadow := some 7, shadowAge := age }) (up 9)
def counting (n : Nat) : State := rtcOf (fun r => { r with wakeEn := true, period := 1, wakeCnt := n }) (up 9)

theorem witness_RtcReadsAndFires : armed.opens 0x0C08 = true ∧ armed.rtc.cntPair.held = none ∧ armed.opens 0x0C14 = true ∧ armed.sys.mode ≠ 1
    ∧ armed.rtc.cmpEn = true ∧ armed.rtc.fired = false ∧ armed.rtc.cmp.applied % 2 ^ 48 ≤ armed.rtc.cnt ∧ armed.rtc.halt = false
    ∧ armed.rtc.wakeEn = true ∧ armed.rtc.period ≠ 0 ∧ armed.pending = [] ∧ armed.rtc.written = false ∧ armed.rtc.wakeCnt = 0
    ∧ 32 ≤ (shadowed 32).rtc.shadowAge ∧ (shadowed 31).rtc.shadowAge < 32 ∧ (shadowed 0).rtc.shadow ≠ none ∧ (shadowed 0).rtc.shadowAge = 0
    ∧ (counting 1).rtc.wakeCnt ≠ 0 ∧ (counting 1).rtc.wakeCnt = 1 ∧ (counting 1).rtc.wakeEn = true ∧ (counting 1).rtc.period ≠ 0 := by decide +kernel

/-- R440: the shadow is gone with the 33rd oscillator period and not before. R450: the wake fires as its count reaches zero. -/
theorem test_shadow_and_wake : (Nat.repeat Rtc.osc 32 (shadowed 0).rtc).shadow = some 7 ∧ (Nat.repeat Rtc.osc 33 (shadowed 0).rtc).shadow = none
    ∧ (counting 1).rtc.osc.wake = true ∧ (counting 2).rtc.osc.wake = false := by decide +kernel

def gating : State := rtcOf (fun r => { r with gate := true, measSrc := 3, shore := true }) (fieldOf (fun f => { f with mains := 5000 }) (up 9))
def admitted : State := domOf (fun d => { d with admitted := true, admittedAt := some 1000 }) (rtcOf (fun r => { r with cnt := 0 })
  { worker 9 with time := { (worker 9).time with num := 3601000 } })

theorem witness_RtcMeasure : gating.rtc.gate = true ∧ gating.gateValid = true ∧ gating.rtc.halt = false ∧ 0 = gating.rtc.gateCount
    ∧ (rtcOf (fun r => { r with gate := false }) gating).gateValid = true ∧ (rtcOf (fun r => { r with gate := false }) gating).rtc.gate = false ∧ (up 9).gateValid = false ∧ (3 : Fin 4).val = gating.rtc.measSrc ∧ (1 : Fin 4).val ≠ gating.rtc.measSrc ∧ 3 ≤ (up 9).sys.mode ∧ admitted.sys.role = 3 ∧ admitted.time.domain = true
    ∧ (if admitted.dom.admitted then admitted.dom.admittedAt else admitted.dom.admitTick) = some 1000 ∧ 1000 ≤ admitted.tick + 1 ∧ (admitted.tick - 1000) % 3600000 = 0
    ∧ 32768 < ((admitted.rtc.cnt : Int) - domainCnt admitted.tick).natAbs := by decide +kernel

/-! Witnesses: the field side. -/

def routed : Route := { cells := [{ pPin := 0, nPin := 1 }], pins := [{ srcKind := 4, srcIndex := 0 }] }
def cellAt (c : CellSt) : State := fieldOf (fun f => { f with dead := false, cells := [(0, c)], route := routed }) (up 9)

theorem witness_CellRanging : (rangeMode (cellAt { tag := 1 }).cfg.e 0).1 = 0 ∧ 0 < ((cellAt { tag := 1 }).field.cell 0).take.tag
    ∧ (cellAt { tag := 1 }).cellOff 0 = false ∧ ((cellAt { due := 1 }).field.cell 0).due = 1 ∧ ((cellAt { due := 2 }).field.cell 0).due = 2
    ∧ 3 ≤ ((cellAt { fails := 3 }).field.cell 0).fails ∧ ((cellAt { fails := 3 }).field.cell 0).due ≠ 3 ∧ ((cellAt { due := 4 }).field.cell 0).due = 4
    ∧ ((cellAt { settle := 999 }).field.cell 0).settle < (cellAt { settle := 999 }).tick ∧ ((cellAt { due := 3, tag := 2 }).field.cell 0).due = 3 := by
  decide +kernel

/-- A steady window whose two quantisers agree, and one in which they do not. -/
def steady : CellObs := { prim := [(20480, 1000)], shad := [(20480, 1000)] }
def apart : CellObs := { prim := [(20480, 2000000000)], shad := [(20480, 1000000000)] }

theorem witness_CellRanging_windows : ({} : CellSt).settle < 7 ∧ ({} : CellSt).tag < 5 ∧ ({} : CellSt).block = none ∧ quiet {} 0 steady = true
    ∧ crossFails {} steady ≤ 2 ∧ crossFails { seam := 4 } steady ≤ 2 ∧ 2 < crossFails {} apart ∧ crossFails { bad := true } steady ≤ 2
    ∧ ({ seam := 4 } : CellSt).cut = false ∧ ({ seam := 4 } : CellSt).due = 0 ∧ 1 ≤ 4 ∧ 0 ≠ 2 ∧ ({} : CellSt).fails = 0 ∧ ({} : CellSt).bad = false
    ∧ ({ bad := true } : CellSt).passes = 0 := by
  decide +kernel

def driven : Epoch := { dio := { chans := [{ dir := 2, pwroffHold := true }] } }
def drivenOn : State := fieldOf (fun f => { f with applied := { f.applied with dio := [.on] } }) (epochOf driven (up 9))

/-- Switch 31 on pin 63, in current limit for `n` ticks. -/
def limiting (n : Nat) : State :=
  fieldOf (fun f => { f with dead := false, lsw := [(31, { run := n })], route := { pins := List.replicate 63 {} ++ [{ srcKind := 4, srcIndex := 31 }] } }) (up 9)

theorem witness_LoopSwitch : (cellAt {}).lswPin 0 = true ∧ (tget {} (limiting 100).field.lsw 31).openAt = none ∧ 100 ≤ (tget {} (limiting 100).field.lsw 31).run
    ∧ (limiting 100).lswPin 31 = true ∧ (tget {} (limiting 99).field.lsw 31).run < 100
    ∧ (tget {} (fieldOf (fun f => { f with lsw := [(0, { openAt := some 100 })] }) (up 9)).field.lsw 0).openAt = some 100 ∧ 100 + 900 ≤ (up 9).tick
    ∧ (tget {} (fieldOf (fun f => { f with lsw := [(0, { openAt := some 101 })] }) (up 9)).field.lsw 0).openAt = some 101 ∧ (up 9).tick < 101 + 900
    ∧ ({} : Lsw).openAt = none ∧ ((epochOf driven (up 9)).cfg.e.chan 0).dir = 2 ∧ 20 ≤ 20 := by decide +kernel

theorem witness_Protections : 2000 ≤ 2000 ∧ 150000000 < 30000 * 5001
    ∧ tget 0 (fieldOf (fun f => { f with dioOff := [(0, 1)], lampOff := [(15, 1)] }) { up 9 with time := { (up 9).time with num := 1001 } }).field.dioOff 0 + 1000 ≤ 1001
    ∧ tget 0 (fieldOf (fun f => { f with dioOff := [(0, 1)], lampOff := [(15, 1)] }) { up 9 with time := { (up 9).time with num := 1001 } }).field.lampOff 15 + 1000 ≤ 1001 := by
  decide +kernel

/-- A bank of five driven channels with 450 mA each sheds its highest one (R172: the rest carries no more than 2.0 A). -/
theorem test_bank_sheds : (Overload.bank 3 2000 [450, 450, 450, 450, 0, 0, 0, 450]).sheds (fun c => c ≠ 28) = [31] := by decide +kernel

def returning : State := at_ 3 (fieldOf (fun f => { f with strobes := 16, stagedFull := true }) (up 9))

theorem witness_BarrierLink : returning.field.dead = true ∧ 16 ≤ returning.field.strobes ∧ returning.field.stagedFull = true ∧ 3 ≤ returning.time.phase
    ∧ (at_ 2 returning).time.phase < 3 ∧ (at_ 2 returning).field.dead = true ∧ (fieldOf (fun f => { f with dead := false }) (up 9)).field.powered = true
    ∧ (fieldOf (fun f => { f with dead := false }) (up 9)).field.dead = false ∧ (up 9).field.powered = true
    ∧ (fieldOf (fun f => { f with regulated := false }) (up 9)).field.powered = true ∧ (fieldOf (fun f => { f with regulated := false }) (up 9)).field.regulated = false
    ∧ (up 9).field.dead = true ∧ (up 9).field.strobes < 16 ∧ (∀ x, (up 9).field.lastLost = some x → x + 10000 ≤ (up 9).tick) := by
  and_intros <;> decide +kernel

/-! Witnesses: points and calls. -/

def inService : PointState := {}
def always : PointCfg := { srcKind := 10, cond := 1, srcRef := 5 }

/-- A point on the rate over 10 ticks, with and without a reference of the window before. -/
def rated : PointCfg := { srcKind := 10, cond := 6, param := 10, limLo := -5, limHi := 5 }
def referred (b : Bool) : PointState := { rateRef := 3, rrefValid := b }

theorem witness_PointStep_rate : rated.cond = 6 ∧ 1000 % rated.param = 0 ∧ 1001 % rated.param ≠ 0 ∧ inhDemand rated 0 = false ∧ (referred true).supp = false
    ∧ (referred true).state ≠ 6 ∧ (referred true).rrefValid = true ∧ (referred false).rrefValid = false ∧ (200 : Int) = divr ((5 - (referred true).rateRef) * 1000) rated.param
    ∧ (bar 5).held = false ∧ (bar 5).fault = none ∧ (bar 5).eng = 5 := by decide +kernel

theorem witness_PointStep : ({ state := 6 } : PointState).state = 6 ∧ inService.state ≠ 6
    ∧ (pointEval always 7 0 15 { fault := none, x := 5, eng := 5, word := 5 } 0 false inService).2 ≠ none
    ∧ inhDemand always 15 = false ∧ inService.supp = false ∧ ({ held := true, fault := none, x := 0, eng := 0, word := 0 } : Reading).held = true
    ∧ ({ fault := some 0x20, x := 0, eng := 0, word := 0 } : Reading).held = false ∧ always.cond ≠ 6
    ∧ inService.a = false ∧ inService.timer = 0 ∧ 0 ≤ always.onDelay + 1 := by decide +kernel

def published : State := { up 9 with dec := { (up 9).dec with lastTick := some 1000, dgroups := [(1023, { state := 5 })] } }

theorem witness_GroupStates : (∀ m ∈ [(1, 3), (0, 1)], m.2 < 4) ∧ (∃ m ∈ [((1 : Nat), (3 : Nat)), (0, 1)], m.1 = 1) ∧ groupCode [(0, 1), (6, 2)] = 0
    ∧ (domOf (fun d => { d with serving := true }) published).decides = true ∧ (domOf (fun d => { d with serving := true }) published).servingAt published.tick = true
    ∧ published.dec.lastTick = some published.tick ∧ twf {} published.dec.dgroups = true := by decide +kernel

/-- A module in EVALUATE of tick 1000 with one point from `c` and its committed state. -/
def evaluating (c : PointCfg) (o : PointState) (chans : List DioChan) (louts : Tbl LoutState) : State :=
  let s := at_ 0 (blockAt 1000 (epochOf { point := { points := [(0, c)] }, dio := { chans := chans } } (up 9)))
  { s with dec := { s.dec with lastTick := some 999, points := if o = {} then [] else [(0, o)], louts := louts } }

def blk : Block := { tick := 1000 }

/-- Point 0 before and after its evaluation. -/
def turn (s : State) : PointState × PointState :=
  let w := s.evaluated 0 blk
  (w.d.pt 0, (evalUpTo s.ctx blk s.dec 1 w).d.pt 0)

def evBase : State := evaluating always {} [{ countEdge := 1, gateTicks := 1000 }] [(0, { compCnt := 3 })]

theorem witness_EvaluateRows : evBase.rec_.block = some blk ∧ evBase.deciding = true ∧ evBase.time.phase = 0
    ∧ 0 ∉ (evBase.begun blk).preps ∧ gateDue (evBase.cfg.e.chan 0) blk.tick = true ∧ 8 + 0 ∉ (evBase.begun blk).preps := by decide +kernel

theorem witness_EvaluateRows_loops :
    let s := fun (st : Nat) (l : LoutState) => loutDue (loutCount (({ tick := 1000, lout := [st] } : Block).loutOf 0) l)
    s 2 { compCnt := 2 } = some 1 ∧ s 6 { failCnt := 2 } = some 2 ∧ s 8 { offCnt := 999 } = some 3 ∧ s 36 { resumeCnt := 99 } = some 4 := by decide +kernel

theorem witness_EvaluateRows_points :
    (evBase.evaluated 0 blk).cursor = 0
    ∧ (turn evBase).1.a = false ∧ (turn evBase).2.a = true
    ∧ (let t := turn (evaluating { always with limHi := 9 } { a := true, state := 2 } [] []); t.1.a = true ∧ t.2.a = false ∧ t.2.supp = false)
    ∧ (let t := turn (evaluating always { supp := true, state := 4 } [] []); t.1.supp = true ∧ t.2.supp = false)
    ∧ (let t := turn (evaluating always { shelveRem := 1, state := 5 } [] []); t.1.shelveRem ≠ 0 ∧ t.2.shelveRem = 0)
    ∧ always.srcKind ≠ 0 ∧ ({ always with cond := 6, param := 10 } : PointCfg).cond = 6 ∧ 1000 % 10 = 0 := by decide +kernel

/-- One session with two tiers and a watch, demanded through domain group 0 where `hot`. -/
def calls : Epoch :=
  { call := { sessions := [(63, { enable := true, wkEn := true, ntiers := 2, timeouts := [10, 10, 10], wkT1 := 5, wkT2 := 9 })]
              binds := [{ group := 0, session := 63, prioMask := 15 }] } }
def workOf (hot : Bool) (q : SessState) : Work :=
  { begun := true, cursor := 1024, evalDone := true, callCursor := 63, callBegun := 1, preps := List.range 400
    d := { lastTick := some 999, dgroups := if hot then [(0, { state := 1 })] else [], sessions := [(63, q)], pub := [(0, 1)] } }
def sess (w : Work) : SessState := tget {} w.d.sessions 63

theorem witness_SquallCalls : (calls.sess 63).enable = true ∧ (∃ b ∈ calls.call.binds, b.session = 63 ∧ bindDemands (workOf true {}).d b = true)
    ∧ (let w := workOf false { tier := 3 }; 1 ≤ (sess w).tier ∧ (sess (evalSession calls 1000 w 63)).tier = 0 ∧ ¬ (bindDemands w.d { group := 0, session := 63, prioMask := 15 } = true)
      ∧ (sess (evalSession calls 1000 w 63)).wk ≠ 3)
    ∧ (let w := workOf true { wk := 1 }; (sess w).tier = 0 ∧ (sess (evalSession calls 1000 w 63)).wk = (sess w).wk) := by decide +kernel

/-- A serving module in PUBLISH whose session 63 is about to raise an event. -/
def calling (q : SessState) (hot : Bool) : State :=
  let s := at_ 1 (blockAt 1000 (epochOf calls (served 9)))
  { s with work := some (workOf hot q), dec := (workOf hot q).d }

def raised (cause : Nat) (s : State) : Bool :=
  (callUpTo s.ctx (finishEval s.ctx s.dec (blk, s.workNow)).1 64 (s.called 63 blk)).evs.any fun v =>
    decide (v.kind = 3 ∧ v.point = 63 ∧ v.cause = cause)

theorem witness_SessionAndKeyRows_calls :
    let a := calling { tier := 1, tcnt := 9 } true
    a.rec_.block = some blk ∧ a.deciding = true ∧ a.time.phase = 1 ∧ a.dom.serving = true
    ∧ (finishEval a.ctx a.dec (blk, a.workNow)).2.callCursor ≤ 63 ∧ raised 0x51 a = true
    ∧ raised 0x58 (calling { wk := 1, wcnt := 4 } false) = true ∧ raised 0x59 (calling { wk := 2, wcnt := 8 } false) = true := by decide +kernel

def keyBlk : Block := { tick := 1000, din := 1 }
def keyed : State := { evBase with rec_ := { evBase.rec_ with block := some keyBlk }, dec := { evBase.dec with prevOk := true } }

theorem witness_SessionAndKeyRows_keys : keyed.rec_.block = some keyBlk ∧ keyed.deciding = true ∧ keyed.time.phase = 0
    ∧ pressed keyBlk keyed.dec 0 = true ∧ pressed keyBlk keyed.dec 31 = false := by decide +kernel

/-! Witnesses: the engines and stored data. -/

def engines (b : Nat) (f : Eng → Eng) (s : State) : State := { s with eng := f { s.eng with b := b } }

theorem witness_Takeover : (at_ 0 (blockAt 1000 (up 9))).decides = true ∧ (at_ 0 (blockAt 1000 (up 9))).eng.duty = 1
    ∧ (at_ 0 (blockAt 1000 (up 9))).eng.audit = none ∧ (up 9).eng.repeatDue = none ∧ (at_ 0 (blockAt 1000 (up 9))).time.phase < 3
    ∧ (at_ 0 (blockAt 1000 (up 9))).rec_.block.isSome = true ∧ eligible (up 9).eng.other = true
    ∧ eligible (engines 6 id (up 9)).eng.other = false := by decide +kernel

def ckpt : Ckpt := { tick := 991, d := {} }
def faulted (k : List Ckpt) : State :=
  let s := at_ 2 (epochOf {} (up 9))
  { s with eng := { s.eng with a := 4, b := 2, dutyB := true, fault := some 1000 }, rec_ := { s.rec_ with ckpts := k } }

/-- A module in catch-up from tick 991 with the blocks of ticks 992 to 1000 recorded, that of tick `l` lost. -/
def replaying (l : List Nat) : State :=
  let s := faulted [ckpt]
  { s with rec_ := { s.rec_ with blocks := (List.range 9).map fun i => { tick := 1000 - i }, lost := l } }

theorem witness_CatchUp : (replaying []).decides = true ∧ (replaying []).eng.duty = 2 ∧ (replaying []).eng.fault = some 1000
    ∧ (replaying []).time.phase < 4 ∧ (replaying []).time.phase < 3 ∧ (replaying []).rec_.ckpts.find? (fun c => c.ok && c.tick < 1000) = some ckpt
    ∧ ((replaying []).rec_.lost.any fun t => ckpt.tick < t && t ≤ 1000) = false
    ∧ (((replaying []).rec_.all.filter fun b => ckpt.tick < b.tick && b.tick ≤ 1000).any fun b => ((replaying []).cfg.image b.epochId).isNone) = false
    ∧ ((replaying [1000]).rec_.lost.any fun t => ckpt.tick < t && t ≤ 1000) = true
    ∧ ((faulted []).rec_.ckpts.find? fun c => c.ok && c.tick < 1000) = none := by decide +kernel

/-- Engine B in RESYNC with the checkpoints of ticks 983 and 999 and what lies between. -/
def resyncing : State :=
  let s := at_ 3 (epochOf {} (engines 5 (fun g => { g with resync := [(1, 983)] }) (up 9)))
  { s with rec_ := { s.rec_ with ckpts := [{ ckpt with tick := 999 }, { ckpt with tick := 983 }], blocks := (List.range 16).map fun i => { tick := 999 - i } } }

/-- Engine B halted with its block reset running. -/
def resetting : State := { engines 4 id (up 9) with sys := { (up 9).sys with blkState := 2, blkCode := 2 } }

theorem witness_EngineReturn : resetting.inReset (1 + b2n true) = true ∧ (engines 4 id (up 9)).inReset (1 + b2n true) = false ∧ (engines 4 id (up 9)).eng.of true = 4 ∧ (engines 4 id (up 9)).eng.repeatDue = none
    ∧ (engines 4 (fun g => { g with repeatDue := some { b := true, k := 991 } }) (up 9)).eng.of true = 4
    ∧ (engines 4 (fun g => { g with repeatDue := some { b := true, k := 991 } }) (up 9)).eng.repeatDue = some { b := true, k := 991 }
    ∧ ({ b := true, k := 991 } : Audit).b = true ∧ resyncing.eng.of true = 5 ∧ resyncPair resyncing true = some { ckpt with tick := 983 }
    ∧ 3 ≤ resyncing.time.phase ∧ resyncing.tick ≤ 983 + 19 ∧ resyncPair (up 9) true = none := by decide +kernel

def auditing : State :=
  let s := at_ 3 (epochOf { red := { auditPeriod := 10, auditPhase := 0 } } { up 9 with time := { (up 9).time with num := 2000 } })
  { s with rec_ := { s.rec_ with ckpts := [{ ckpt with tick := 1999 }, { ckpt with tick := 1007 }] } }

theorem witness_AuditRows : 8 ≤ auditing.sys.mode ∧ auditing.sys.mode ≤ 11 ∧ 3 ≤ auditing.time.phase ∧ auditing.cfg.has = true ∧ auditing.eng.other = 0
    ∧ auditing.eng.audit = none ∧ auditing.tick % auditing.cfg.e.red.auditPeriod = auditing.cfg.e.red.auditPhase
    ∧ auditing.rec_.ckpts.find? (·.ok) = some { ckpt with tick := 1999 } ∧ auditing.rec_.lost = []
    ∧ (auditing.rec_.blocks.any fun b => b.test && 1999 < b.tick + 992 && b.tick ≤ 1999) = false
    ∧ (auditing.rec_.ckpts.any fun x => x.ok && x.tick + 992 = 1999) = true := by decide +kernel

/-- An audit of engine B in whose span one tick, 1500, lies in the record. -/
def audited (r : Bool) : State :=
  let s := engines 3 (fun g => { g with audit := some { b := true, k := 1999, repeated := r } }) auditing
  { s with rec_ := { s.rec_ with ckpts := { ckpt with tick := 991 } :: s.rec_.ckpts, blocks := [{ tick := 1500 }] } }
def auditBase : Ckpt := { ckpt with tick := 1007 }

theorem witness_AuditRows_outcomes : ({ b := true, k := 1999, repeated := true } : Audit).repeated = true ∧ (up 9).sys.blkState = 0
    ∧ (engines 3 (fun g => { g with named := [false, true] }) (up 9)).eng.named.getD (b2n true) false = true
    ∧ ({ b := true, k := 1999, repeated := true, firstAt := some 1008 } : Audit).firstAt = some 1008 ∧ ({ b := true, k := 1999 } : Audit).firstAt ≠ some 1008
    ∧ (7, b2n true) ∈ ({ auditing with causes := [(7, 1)] } : State).causes := by decide +kernel

theorem witness_AuditRows_end : (audited false).eng.audit = some { b := true, k := 1999 } ∧ ({ b := true, k := 1999 } : Audit).job = none
    ∧ ((audited false).rec_.ckpts.find? fun c => c.ok && c.tick + ({ b := true, k := 1999 } : Audit).span = 1999) = some auditBase
    ∧ compareSpan { audited false with rec_ := { (audited false).rec_ with blocks := [] } } true { ckpt with tick := 1999 } 1999 none = some none
    ∧ compareSpan (audited false) true auditBase 1999 (some 1500) = some (some 1008)
    ∧ compareSpan { audited false with rec_ := { (audited false).rec_ with blocks := [{ tick := 1008, epochId := 9 }] } } true auditBase 1999 none = none
    ∧ (1007 : Nat) < 1500 ∧ 1500 ≤ 1999 ∧ (∃ b ∈ (audited false).rec_.all, b.tick = 1500) := by decide +kernel

/-- 32 data bytes with their check bytes, as a memory holds them, and with five bytes wrong. -/
def sound : List Byte := (rsBlock (List.range 32)).map (BitVec.ofNat 8)
def spoilt : List Byte := ((((sound.set 0 9).set 9 200).set 20 1).set 31 0).set 39 (sound.getD 39 0 + 1)

/-- A scrub of store `i` last made at tick 744. -/
def wiped (i m : Nat) : State := let s := at_ 3 (up m); { s with mem := { s.mem with scrubAt := [(i, 744)] } }

theorem witness_StoreErrors : (∀ y ∈ (wiped 0 5).mem.scrubAt, y.1 = 0 → y.2 + scrubEvery 0 ≤ (wiped 0 5).tick) ∧ 5 ≤ (wiped 0 5).sys.mode
    ∧ 3 ≤ (wiped 0 5).time.phase ∧ (∀ y ∈ (wiped 0 4).mem.scrubAt, y.1 = 2 → y.2 + scrubEvery 2 ≤ (wiped 0 4).tick)
    ∧ (wiped 1 5).mem.scrubAt = [(1, 744)] ∧ 744 ≤ (wiped 1 5).tick ∧ (wiped 1 5).tick < 744 + scrubEvery 1
    ∧ (wiped 0 5).ticking = true ∧ ({ (up 9).mem with reserve := 16 } : Mem).reserve.toNat = 16
    ∧ 4 ≤ (up 4).sys.mode ∧ (up 12).sys.mode ≤ 12 ∧ 4 ≤ (up 12).sys.mode ∧ (up 12).eng.audit = none
    ∧ (readBlock false (sound.set 3 99)).isSome = true ∧ readBlock true (sound.set 3 99) = none ∧ readBlock false spoilt = none
    ∧ (readBlock true sound).isSome = true := by decide +kernel

/-- Four wrong bytes are corrected, anywhere in the block (R375, R376). -/
theorem test_rs_corrects : rsRead ((((rsBlock (List.range 32)).set 0 77).set 15 255).set 33 9 |>.set 39 1) = some (rsBlock (List.range 32), 4)
    ∧ rsRead ((List.replicate 40 0).set 39 5) = some (List.replicate 40 0, 1) := by decide +kernel

theorem witness_GuardedStores : (∀ x ∈ List.range 32, x < 256) ∧ (List.range 32).length = 32 ∧ (rsBlock (List.range 32)).length = 40
    ∧ (rsRead (rsBlock (List.range 32))).isSome = true ∧ (rsDetect (rsBlock (List.range 32))).isSome = true
    ∧ (let j : PanelJournal := { state := 3, kind := 2, id := 65535, rtc := 2 ^ 48 - 1, crcNew := 2 ^ 32 - 1, epochSeq := 1 }; readJournal (encJournal j) = some j)
    ∧ u16 (encJournal { state := 1 } |>.set 0 2) 62 ≠ (crc16 ((encJournal { state := 1 } |>.set 0 2).take 62)).toNat ∧ 255 < 256
    ∧ ({ (up 9) with sys := { (up 9).sys with rstCause := 2 } } : State).sys.rstCrc ≠ crc16 [BitVec.ofNat 8 2] := by decide +kernel

def paged (n : Nat) : State :=
  let s := up 12
  { s with mem := { s.mem with page := List.replicate n { kind := 1, point := 0, old := 0, new := 1, cause := 0, stale := false, word := 0, aux := 0, tick := 0 }, pageAt := some 0
                               res := some { res := 32767, tick := 0 } } }

theorem witness_EventStore : 6 ≤ (paged 128).sys.mode ∧ (paged 128).sys.mode ≤ 12 ∧ 128 ≤ (paged 128).mem.page.length
    ∧ (paged 128).mem.store.length + 128 ≤ storeKeeps ∧ (paged 1).mem.page.length < 128 ∧ (∀ a, (paged 0).mem.pageAt = some a → (paged 0).tick < a + 1001) ∧ (up 12).mem.page.length < 128 ∧ (∀ a, (up 12).mem.pageAt = some a → (up 12).tick < a + 1000) ∧ (paged 128).mem.resLog.length < 49152
    ∧ (paged 128).mem.page.length ≤ 128 ∧ (paged 0).mem.page = [] ∧ 2 ^ 31 ≤ sub32 32767 32768 ∧ sub32 32767 32767 < 2 ^ 31 ∧ (paged 1).mem.pageAt = some 0 ∧ 0 + 1000 ≤ (paged 1).tick
    ∧ (paged 1).mem.res = some { res := 32767, tick := 0 } ∧ sub32 (32767 + 1) (paged 1).dec.seq ≤ 32768 := by decide +kernel

/-! Witnesses: power and reset. -/

def sysOf (f : Sys → Sys) (s : State) : State := { s with sys := f s.sys }

theorem witness_Supplies : (up 9).present false = true ∧ (15999 < 16000 ∨ 34000 < 15999) ∧ (up 9).present (!false) = true
    ∧ (sysOf (fun y => { y with presentA := false }) (up 9)).present false = false ∧ (sysOf (fun y => { y with presentA := false }) (up 9)).tooHigh false = false
    ∧ (sysOf (fun y => { y with presentA := false, overA := true }) (up 9)).tooHigh false = true ∧ 18000 ≤ 32000 ∧ 17999 < 18000 ∧ 16999 < 17000 ∧ 34000 < 34001
    ∧ 17000 ≤ 17000 ∧ 17000 ≤ 34000 ∧ 4 ≤ (up 9).sys.mode ∧ 2000 ≤ 2000 ∧ (up 1).sys.mode = 1 ∧ (up 1).rtc.up = true ∧ (rtcOf (fun r => { r with up := false }) (up 1)).rtc.up = false
    ∧ (up 2).sys.mode = 2 := by decide +kernel

theorem witness_Supplies_powerFail : 15999 < 16000 ∧ 34000 < 34001 ∧ 4 ≤ (up 4).sys.mode ∧ (up 4).sys.mode ≤ 12 ∧ (up 4).sys.powerFail = none
    ∧ ((up 9).present false = true → 15999 < 16000 ∨ 34000 < 15999) ∧ (up 4).ticking = false ∧ (at_ 2 (up 9)).time.phase < 3
    ∧ (at_ 3 (up 9)).ticking = true ∧ 3 ≤ (at_ 3 (up 9)).time.phase ∧ (at_ 3 (up 9)).sys.powerFail = none ∧ (up 4).mem.areas = [none, none]
    ∧ (({ up 9 with mem := { (up 9).mem with chans := [(11, { state := 1, len := 8 })] } } : State).chan 11).state = 1
    ∧ (sysOf (fun y => { y with powerFail := some 990 }) (up 9)).sys.powerFail = some 990 := by decide +kernel

theorem witness_Resets : (sysOf (fun y => { y with hbLost := true }) (up 9)).sys.hbLost = true ∧ 5 ≤ (sysOf (fun y => { y with hbLost := true }) (up 9)).sys.mode ∧ 4 ≤ (up 4).sys.mode ∧ 10000 ≤ 10000 ∧
    100 ≤ 100 ∧ 99 < 100 ∧ 9999 < 10000 ∧ (up 3).sys.mode = 3 ∧ (sysOf (fun y => { y with extLow := true }) (up 3)).sys.extLow = true ∧ (up 12).sys.hbLost = false ∧ (up 12).sys.mode ≤ 12
    ∧ ({ up 9 with mem := { (up 9).mem with optUse := { (up 9).mem.optUse with setB := true } } } : State).mem.optUse.setB = true
    ∧ (up 9).mem.optUse.setB = false ∧ (rtcOf (fun r => { r with up := false }) (up 1)).rtc.up = false ∧ (up 1).rtc.up = true
    ∧ (sysOf (fun y => { y with rstCause := 7 }) (up 9)).sys.rstCrc ≠ crc16 [BitVec.ofNat 8 7] := by decide +kernel

def flashed : State :=
  let s := up 4
  { s with mem := { s.mem with images := [{ empty := false, sig := true, hash := true, stepMax := 65535, peerMax := 2 ^ 32 - 1 }, {},
      { empty := false, part := 1, sig := true, hash := true, stepMax := 65535, peerMax := 2 ^ 32 - 1 }, { part := 1 }] } }

/-- In BOOT with the epoch committed in slot 0. -/
def committed : Epoch := { target := 2, deviceMask := 4, mode := { autoRun := true } }
def bootable : State := { flashed with cfg := { flashed.cfg with slots := [some committed, none, none, none] } }

theorem witness_Boot : (up 3).sys.mode = 3 ∧ (up 3).sys.powerFail = none ∧ (up 3).sys.porHeld = false ∧ (up 3).sys.extLow = false ∧ (optInUse (up 3).mem (strapRole (latchStrap [60, 60, 60, 60]).1).2).isSome = true
    ∧ flashed.cfg.slots.take 2 = [none, none] ∧ (bootable.cfg.slots.head? : Option (Option Epoch)) = some (some committed)
    ∧ recheckOk ({ bootable with mem := { bootable.mem with running := bootable.mem.runSlot.getD 0 } } : State).stageCtx committed = true
    ∧ committed.mode.autoRun = true ∧ bootable.badDev = false ∧ bootable.sys.mode = 4 ∧ bootable.sys.variant = 0 ∧ bootable.mem.runSlot ≠ none ∧ bootable.sys.role < 2
    ∧ (sysOf (fun y => { y with variant := 3 }) flashed).sys.variant = 3 ∧ (sysOf (fun y => { y with variant := 1 }) flashed).sys.variant = 1
    ∧ (sysOf (fun y => { y with variant := 2 }) (up 4)).sys.mode = 4
    ∧ (sysOf (fun y => { y with variant := 2 }) (up 4)).sys.variant = 2 ∧ flashed.sys.mode = 4 ∧ flashed.sys.variant = 0 ∧ flashed.mem.runSlot.isSome = true
 := by decide +kernel

/-! Witnesses: Gust, digests and membership. -/

def request : JoinReq := { mac := 7, role := 3, dev := 63, plMin := 0, plMax := 1, epochHeld := 0, epochStaged := 0 }

def segsBut3 : List ((Nat × Nat) × List Byte) := [((0, 0), List.replicate 1178 0), ((0, 1), List.replicate 1162 0), ((0, 2), List.replicate 1162 0)]
def hdr3 : Hdr := { hdr with seg := 3 }
def listening : State := domOf (fun d => { d with segs := segsBut3, segTick := some 0 }) (worker 8)

theorem witness_GustReception_segment : (up 9).takes { hdr with seg := 1, tick := 1000 } 1 0 = true ∧ (up 9).sys.role = 0 ∧ (served 9).sys.role ≠ 0 ∧ (served 9).takes { hdr with seg := 1, tick := 1000 } 1 0 = true ∧ (served 9).sys.mode ≠ 8
    ∧ ({ hdr with seg := 1, tick := 1000 } : Hdr).tick = (served 9).tick ∧ (served 9).dom.gustClosed = false
    ∧ (List.replicate 1162 (0 : Byte)).length = 1162 ∧ gustPayload [((0, 1), List.replicate 1162 0)] = none
    ∧ (domOf (fun d => { d with adopted := true }) (worker 8)).dom.adopted = true ∧ (worker 8).takes { hdr with tick := 1000 } 1 0 = true
    ∧ ({ hdr with tick := 1000 } : Hdr).seg = 0 ∧ (List.replicate 1178 (0 : Byte)).length = 1178 ∧ gustPayload [((0, 0), List.replicate 1178 0)] = none := by decide +kernel

def allSegs : List ((Nat × Nat) × List Byte) := segsBut3 ++ [((0, 3), List.replicate 1162 0)]
def otherSegs : List ((Nat × Nat) × List Byte) := allSegs.map fun x => ((1, x.1.2), x.2)

/-- A worker in RUN at tick 0 with all but the last segment of the Gust of that tick. -/
def hearing : State :=
  let s := domOf (fun d => { d with segs := segsBut3, segTick := some 0 }) (worker 9)
  { s with time := { s.time with num := 0 } }

theorem witness_GustReception_last : listening.takes hdr3 1 0 = true ∧ listening.sys.mode = 8 ∧ listening.sys.role = 3 ∧ listening.dom.adopted = false ∧ listening.dom.serving = false
    ∧ listening.dom.admitted = false ∧ listening.dom.admitTick = none ∧ listening.dom.gustClosed = false ∧ hdr3.seg ≤ 3
    ∧ gustPayload (if listening.dom.segTick = some 0 then listening.dom.segs else []) = none
    ∧ (gustPayload allSegs).any (fun x => (decGust x).tick = hdr3.tick) = true := by decide +kernel

theorem witness_GustReception_run : hearing.takes hdr3 1 0 = true ∧ hearing.sys.mode ≠ 8 ∧ hearing.sys.role ≠ 0 ∧ hdr3.tick = hearing.tick ∧ hearing.dom.serving = false
    ∧ hearing.dom.gustClosed = false ∧ gustPayload (if hearing.dom.segTick = some 0 then hearing.dom.segs else []) = none
    ∧ (gustPayload allSegs).any (fun x => (decGust x).tick = hdr3.tick && (decGust x).epochId = expectedEpoch (decGust x) hearing) = true
    ∧ (gustPayload allSegs).any (fun x => (decGust x).epochId ≠ expectedEpoch (decGust x) (epochOf { seq := 7 } hearing)) = true
    ∧ (domOf (fun d => { d with admitted := true }) hearing).dom.admitted = true ∧ hearing.dom.admitTick ≠ some (hearing.tick + 1) := by decide +kernel

theorem witness_GustReception_deadline : (worker 9).ticking = true ∧ (worker 9).time.domain = true ∧ (worker 9).dom.gustClosed = false
    ∧ (domOf (fun d => { d with gustNow := some {} }) (worker 9)).dom.gustNow = some {} ∧ (worker 9).dom.gustNow = none
    ∧ (worker 9).dom.serving = false := by decide +kernel

theorem witness_GustReception_theta : (gustPayload allSegs).any (fun x => hearing.dom.segTick = some (decGust x).tick) = true
    ∧ (∀ k < 4, segOf allSegs 0 k ≠ none) ∧ (gustPayload otherSegs).any (fun x => hearing.dom.segTick = some (decGust x).tick) = true
    ∧ segOf otherSegs 0 0 = none ∧ segOf otherSegs 1 0 ≠ none := by decide +kernel

theorem witness_FrameBytes : (Frame.joinRequest request).payload.length = (Frame.joinRequest request).payloadLen
    ∧ (Frame.gust 3 {}).payload.length = (Frame.gust 3 {}).payloadLen := by decide +kernel

/-- The groups of Table: Sprinzet frame types and the lengths of its rows (R296, R297). -/
theorem test_frame_lengths : groupMac 1 = 0x034B5A000001 ∧ (Frame.gust 0 {}).payload.length = 1178 ∧ (Frame.gust 1 {}).payload.length = 1162
    ∧ (wireBytes (up 9) 0 5 (.joinRequest request)).length = 88 ∧ (wireBytes (up 9) 0 5 (.joinRequest request)).take 6 = [3, 0x4B, 0x5A, 0, 0, 3] := by decide +kernel

/-- A serving module with device 63 admitted. -/
def manager (m phase : Nat) : State := domOf (fun d => { d with peers := [(63, { admitAt := some 500 })] }) (at_ phase (served m))
def hdrD : Hdr := { hdr with type := 2, src := 63, tick := 1000, len := 84, rx := 84, level := 0 }
/-- A digest of device 63 for tick 1000, with no entries. -/
def digestBytes : List Byte := [63, 0, 0, 0, 0xE8, 3, 0, 0, 0, 0, 0, 0] ++ List.replicate 8 0 ++ List.replicate 64 0xFF

theorem witness_DigestAndStatusFrames : (manager 9 0).takes hdrD 2 0 = true ∧ (manager 9 0).domain = true ∧ (manager 9 0).time.phase < 4
    ∧ (manager 9 0).dom.closed = false ∧ (decDigest digestBytes).tick = (manager 9 0).tick ∧ (decDigest digestBytes).epochId = (manager 9 0).epochNow
    ∧ (decDigest digestBytes).dev = hdrD.src ∧ (manager 9 0).isAdmitted hdrD.src = true ∧ hdrD.src ≠ (manager 9 0).dom.dev
    ∧ (∀ y ∈ (manager 9 0).dom.digests, y.dev ≠ hdrD.src) ∧ (decDigest (List.replicate 84 0)).tick ≠ (manager 9 0).tick
    ∧ (worker 9).ticking = true ∧ 2 ≤ (worker 9).sys.role ∧ (worker 9).dom.serving = false ∧ (worker 9).statusDue = true ∧ (worker 9).inReset 0x11 = false
    ∧ (domOf (fun d => { d with statusSent := some 1000, statusKey := statusKey (statusBlock (worker 9)) }) (worker 9)).statusDue = false
    ∧ (manager 9 0).takes { hdrD with type := 7, cls := 1 } 7 1 = true ∧ (List.replicate 512 (63 : Byte)).length = 512 ∧ u8 (List.replicate 512 63) 0 ≤ 63
    ∧ (manager 9 0).isAdmitted (u8 (List.replicate 512 63) 0) = true := by
  decide +kernel

theorem witness_DigestCutoff : (manager 9 3).ticking = true ∧ 7 ≤ (manager 9 3).sys.mode ∧ 3 ≤ (manager 9 3).time.phase ∧ (manager 9 3).dom.closed = false
    ∧ (manager 9 3).dom.taking = false ∧ (∀ x ∈ (manager 9 3).view.scheds, x.ring ≠ none → x.input.opcode ≠ 0x21) ∧ (manager 9 3).master = true ∧ (at_ 3 (worker 7)).master = false ∧ 7 ≤ (at_ 3 (worker 7)).sys.mode ∧ (manager 9 3).sys.resetDue = none := by decide +kernel

def standing (m : Nat) : State :=
  domOf (fun d => { d with role := some { tick := 998 }, gustMiss := 2, standby := true, admitted := true, level := 1 }) (sysOf (fun y => { y with role := 2 }) (at_ 3 (worker m)))

theorem witness_Standby : (standing 9).dom.serving = false ∧ (standing 9).sys.role = 2 ∧ (standing 9).takes { hdr with type := 8, cls := 2 } 8 2 = true
    ∧ (standing 9).dom.role = some { tick := 998 } ∧ (standing 9).dom.taking = false ∧ (standing 9).decides = true ∧ (standing 9).dom.admitted = true
    ∧ (standing 9).dom.island = false ∧ 2 ≤ (standing 9).dom.gustMiss ∧ 3 ≤ (standing 9).time.phase ∧ (standing 9).dom.closed = false
    ∧ (domOf (fun d => { d with closed := true }) (standing 9)).dom.closed = true
    ∧ (domOf (fun d => { d with taking := true, gustNext := some {} }) (standing 9)).dom.taking = true
    ∧ (domOf (fun d => { d with taking := true, gustNext := some {} }) (standing 9)).dom.gustNext = some {} ∧ (standing 9).ticking = true ∧ (standing 9).hif.jobs = [] ∧ (standing 9).sys.resetDue = none := by
  decide +kernel

def away (f : Dom → Dom) : State := domOf f (at_ 0 (worker 10))

theorem witness_IslandsAndLeaving : (away fun d => { d with absent := 9 }).decides = true ∧ (away fun d => { d with absent := 9 }).dom.serving = false
    ∧ (away fun d => { d with absent := 9 }).dom.island = false ∧ 9 ≤ (away fun d => { d with absent := 9 }).dom.absent
    ∧ (away id).time.phase = 0 ∧ (away fun d => { d with island := true, complete := 16 }).dom.island = true ∧ (away id).sys.mode = 10 ∧ (away id).sys.hbLost = false
    ∧ (worker 11).sys.mode ≠ 10
    ∧ (away fun d => { d with island := true, complete := 16 }).dom.refused = false ∧ 16 ≤ (away fun d => { d with island := true, complete := 16 }).dom.complete
    ∧ (away fun d => { d with island := true, complete := 16 }).dom.islandCause ≠ 0x10 ∧ (away id).badDev = false
    ∧ (domOf (fun d => { d with peers := [(63, { admitAt := some 1, missing := 64 })] }) (served 9)).dom.serving = true
    ∧ 64 ≤ ((domOf (fun d => { d with peers := [(63, { admitAt := some 1, missing := 64 })] }) (served 9)).peer 63).missing
    ∧ ((domOf (fun d => { d with peers := [(63, { admitAt := some 1, missing := 64 })] }) (served 9)).peer 63).admitAt ≠ none
    ∧ (away fun d => { d with thetaBad := 16, thetaFar := 15 }).dom.thetaFar < 16 ∧ 16 ≤ (away fun d => { d with thetaBad := 16, thetaFar := 15 }).dom.thetaBad
    ∧ (12, 0) ∉ (away id).causes ∧ (away fun d => { d with thetaBad := 15, thetaGood := 64 }).dom.thetaBad < 16
    ∧ 64 ≤ (away fun d => { d with thetaBad := 15, thetaGood := 64 }).dom.thetaGood ∧ 16 ≤ (away fun d => { d with thetaFar := 16 }).dom.thetaFar := by decide +kernel

def joiner : State := domOf (fun d => { d with aligned := 64 }) (worker 8)

theorem witness_Joining : 2 ≤ joiner.sys.role ∧ joiner.dom.serving = false ∧ joiner.dom.admitTick = none ∧ joiner.dom.islandCause ≠ 0x10
    ∧ joiner.sys.mode = 8 ∧ 64 ≤ joiner.dom.aligned ∧ joiner.dom.joinSent = none ∧ joiner.inReset 0x11 = false ∧ (served 9).inReset 0x11 = false
    ∧ joiner.time.domain = true ∧ ({ joiner.time with domain := false } : Time).domain = false
    ∧ (served 9).takes { hdr with type := 5, cls := 1 } 5 1 = true ∧ (served 9).domain = true ∧ (at_ 0 (served 9)).time.phase < 3
    ∧ (at_ 0 (served 9)).takes { hdr with type := 5, cls := 1 } 5 1 = true ∧ 3 ≤ (served 9).time.phase ∧ (served 9).isAdmitted request.dev = false
    ∧ refusal request (served 9) = 0 ∧ refusal { request with dev := 1 } (served 9) ≠ 0 ∧ (served 9).isAdmitted 1 = false
    ∧ joiner.takes { hdr with type := 6, cls := 1 } 6 1 = true
    ∧ (∀ l, joiner.time.lastRec = some l → l ≤ joiner.tick) ∧ ({ joiner.time with lastRec := some 1001 } : Time).lastRec = some 1001 ∧ joiner.tick < 1001
    ∧ ({ result := 0, dev := 2, level := 1, admitAt := 1040, epochId := 0 } : JoinResp).dev = joiner.dom.dev
    ∧ ({ result := 4, dev := 2, level := 1, admitAt := 0, epochId := 0 } : JoinResp).result ≠ 0 := by decide +kernel

def managing : State := domOf (fun d => { d with listen := some 800 }) (sysOf (fun y => { y with role := 1 }) (up 8))

theorem witness_AdmissionAndService : (domOf (fun d => { d with admitTick := some 1001 }) (at_ 3 (worker 8))).dom.admitTick = some ((at_ 3 (worker 8)).tick + 1)
    ∧ 3 ≤ (at_ 3 (worker 8)).time.phase ∧ (worker 8).dom.admitted = false ∧ (worker 8).sys.mode = 8 ∧ (worker 7).sys.mode = 7
    ∧ ({ worker 8 with time := { (worker 8).time with lastRec := some 1001 } } : State).time.lastRec = some 1001 ∧ (worker 8).tick + 1 ≤ 1001
    ∧ managing.sys.mode = 8 ∧ managing.sys.role = 1 ∧ managing.dom.standby = false ∧ managing.dom.s0 = none ∧ managing.dom.listen = some 800
    ∧ (worker 11).sys.mode = 11 ∧ ((managing.rec_.ckpts.find? (·.ok)) = none) ∧ ([ckpt].find? (·.ok)) = some ckpt
    ∧ 800 + 200 ≤ managing.tick ∧ (domOf (fun d => { d with s0 := some 1001 }) (at_ 3 managing)).dom.s0 = some (managing.tick + 1) := by decide +kernel

theorem witness_AdmissionAndService_record : ∀ l, (at_ 3 (worker 8)).time.lastRec = some l → l < (at_ 3 (worker 8)).tick + 1 := by
  intro l h
  exact nomatch h

def portsOf (p q : Port) (s : State) : State := { s with net := { s.net with ports := [p, q] } }
def linked (s : State) : State := portsOf { link := true, gig := true, ring := true, upAt := some 0 } { link := true, gig := true, ring := true } s

def holding (n : Nat) : State :=
  let s := at_ 0 (linked (up 12))
  { s with net := { s.net with held := [{ cls := 1, len := n, port := 2, frame := .pdelayReq 0 }] } }

def modeJob (m : Word) : Job := { cmd := { ring := 0, op := 2, arg1 := m }, origin := .reg, start := 1000 }
def asked (m : Word) (mode : Nat) : State := let s := at_ 3 (up mode); { s with hif := { s.hif with jobs := [modeJob m] } }
def blackout (mode : Nat) (cnt back : Nat) (own : Bool) : State :=
  let s := epochOf { mode := { boMains := true, boDelay := 5, boExit := 5 } } (served mode)
  { s with dec := { s.dec with moCnt := cnt, moBack := back, moOwn := own } }

def crowded : State := { served 9 with dec := { (served 9).dec with scheds := List.replicate 256 { apply := 5, input := { opcode := 0x20, targetDev := 0, target := 0, locDev := 0, locInput := 0, tag := 0, arg := 0, reqTick := 5 } } } }

theorem witness_ModeRequests : (asked 12 9).ticking = true ∧ 3 ≤ (asked 12 9).time.phase ∧ (asked 12 9).hif.jobs = [modeJob 12]
    ∧ isModeJob (asked 12 9) (modeJob 12) = true ∧ (∀ g ∈ (asked 12 9).dom.inputs, g.opcode ≠ 0x02) ∧ (asked 12 9).sys.resetDue = none
    ∧ modeRequest 9 (modeJob 12).cmd.arg1.toNat false false (runMode (asked 12 9)) = some (.inr 12)
    ∧ (asked 5 7).field.lead = none ∧ (modeJob 5).origin = .reg ∧ (asked 5 7).net.held = [] ∧ (holding 64).net.held ≠ []
    ∧ (12 = 8 → (asked 12 9).badDev = false) ∧ (asked 5 7).field.survey = none ∧ (asked 5 7).field.surveyEnd = none ∧ isModeJob (asked 5 7) (modeJob 5) = true ∧ modeRequest 7 (modeJob 5).cmd.arg1.toNat false false (runMode (asked 5 7)) = some (.inl ())
    ∧ (blackout 9 5 0 false).dom.serving = true ∧ (blackout 9 5 0 false).decides = true ∧ (blackout 9 5 0 false).cfg.e.mode.boMains = true
    ∧ (blackout 9 5 0 false).sys.mode ≠ 11 ∧ (blackout 9 5 0 false).view.moOwn = false
    ∧ (blackout 9 5 0 false).cfg.e.mode.boDelay ≤ (blackout 9 5 0 false).view.moCnt
    ∧ (blackout 9 5 0 false).schedsFull = false ∧ (blackout 11 0 5 true).schedsFull = false ∧ crowded.schedsFull = true ∧ (blackout 11 0 5 true).sys.mode = 11 ∧ (blackout 11 0 5 true).view.moOwn = true
    ∧ (blackout 11 0 5 true).cfg.e.mode.boExit ≤ (blackout 11 0 5 true).view.moBack := by decide +kernel

def switching (id : Nat) : State :=
  let s := at_ 3 (up 9)
  { s with cfg := { s.cfg with switch := some (id, 1001), staged := some { seq := 7 } } }

theorem witness_EpochSwitch : (switching 7).dom.pend = none ∧ (switching 7).cfg.switch = some (7, 1001) ∧ 1001 = (switching 7).tick + 1
    ∧ 3 ≤ (switching 7).time.phase ∧ (switching 7).ticking = true ∧ (switching 7).cfg.staged = some { seq := 7 }
    ∧ ((switching 8).cfg.staged.all fun e => e.id ≠ 8) = true ∧ (switching 8).cfg.since ≠ ((switching 8).tick + 1) % 2 ^ 48
    ∧ (putInForce {} [] (switching 8)).cfg.has = true ∧ (putInForce {} [] (switching 8)).cfg.since = ((putInForce {} [] (switching 8)).tick + 1) % 2 ^ 48
    ∧ (putInForce {} [] (switching 8)).dom.pend = none ∧ 3 ≤ (putInForce {} [] (switching 8)).time.phase
    ∧ (putInForce {} [] (switching 8)).ticking = true ∧ (putInForce {} [] (switching 8)).cfg.switch = none := by decide +kernel

/-- A switch that stays closed after an admission's switch is reported by the readback alone (R80). -/
theorem test_readback : (readBack {} {} [(1, 2)] (switching 7)).field.stuck.map (fun x => (x.a, x.b)) = [(1, 2)] ∧ (4, 0) ∈ (readBack {} {} [(1, 2)] (switching 7)).causes := by decide +kernel

/-! Witnesses: ports and time references. -/

theorem witness_Links : (up 9).net.ports.length = 2 ∧ (up 9).phys = true ∧ ((up 9).port 1).link = false ∧ ((linked (up 9)).port 1).link = true
    ∧ ((linked (up 9)).port 0).ring = true ∧ (linked (up 9)).phys = true ∧ ((portsOf { busy := true } {} (up 9)).port 0).busy = true
    ∧ (up 9).opens 0x2408 = true ∧ ((up 9).port 0).link = false ∧ ((up 9).port 0).busy = false
    ∧ (up 4).sys.mode = 4 ∧ (up 4).phys = true ∧ (up 9).inReset 0x11 = false ∧ ((linked (up 9)).port 0).interlink = false
    ∧ ((portsOf { testAt := some 0 } {} { up 9 with time := { (up 9).time with num := 60000 } }).port 0).testAt = some 0 ∧ 0 + 60000 ≤ 60000
    ∧ ((up 9).port 0).testAt = none ∧ (∀ y, ((up 9).port 0).downAt = some y → y + 1000 ≤ (up 9).tick) := by and_intros <;> decide +kernel

def ringNode : State := { linked (up 9) with time := { (up 9).time with num := 4000 } }
def seenNode : State := { ringNode with net := { ringNode.net with seen := [((7, 9, 1), 4000)] } }
def interNode : State := portsOf { link := true, interlink := true } {} ringNode
def dark : State := { ringNode with sys := { ringNode.sys with mode := 11 } }

theorem witness_HsrRingTraffic : ringNode.net.ports.length = 2 ∧ (ringNode.port 0).ring = true ∧ (ringNode.port 0).hsr = false ∧ (ringNode.port 0).upAt = some 0
    ∧ 0 + 4000 ≤ ringNode.tick ∧ ringNode.phys = true ∧ (∀ y, ringNode.net.supAt = some y → y + 2000 ≤ ringNode.tick)
    ∧ ({ ringNode.net with supAt := some 3000 } : Net).supAt = some 3000 ∧ ringNode.tick < 3000 + 2000 ∧ (ringNode.port 0).link = true ∧ (ringNode.port 1).link = true ∧ Config.mac + 1 ≠ Config.mac
    ∧ (if (ringNode.port 0).interlink || !true then 1522 else 1528) < 1529 ∧ (if (ringNode.port 0).interlink || !false then 1522 else 1528) < 1523 ∧ (ringNode.port 0).interlink = false ∧ ringNode.net.proxy ≠ some (Config.mac + 1)
    ∧ (ringNode.net.seen.all fun y => y.1 ≠ (7, 9, 1)) = true ∧ (ringNode.port 1).interlink = false ∧ (ringNode.port 1).ring = true
    ∧ windowEnd 100 = none ∧ (ringNode.sys.mode = 11 → (3 : BitVec 2) ≠ 3)
    ∧ (∃ y ∈ seenNode.net.seen, y.1 = (7, (9#16).toNat, 1) ∧ seenNode.tick < y.2 + 400) ∧ (interNode.port 0).interlink = true ∧ (interNode.port 0).link = true
    ∧ interNode.phys = true ∧ ringNode.inReset 0x11 = false ∧ dark.phys = true ∧ dark.sys.mode = 11 ∧ (dark.port 0).link = true ∧ (dark.port 1).ring = true
    ∧ true = (((linked (up 9)).port 0).upAt.all fun y => decide ((linked (up 9)).tick < y + 4000)) ∧ false = ((ringNode.port 0).upAt.all fun y => decide (ringNode.tick < y + 4000)) := by
  and_intros <;> first | decide +kernel | omega

def refd (r : Word) (valid : Bool) (n : Nat) : State :=
  let s := linked (served 9)
  { s with time := { s.time with tref := r, refValid := valid, refCount := n } }

/-- A port with its last delay exchange at tick `t`, and a Sync of node 7 taken in both directions. -/
def timed (t : Nat) : State := let s := linked (up 9); { s with net := { s.net with ports := [{ (s.port 0) with pdelayAt := some t }, s.port 1] } }
def heardSync : State := let s := linked (up 9); { s with net := { s.net with seen := [((7, 9, 1), 900), ((7, 9, 2), 900)] } }

theorem witness_TimeReferences_syncs : Config.mac + 1 ≠ Config.mac ∧ (refd 0 true 0).ticking = true ∧ ((refd 0 true 0).port 0).link = true ∧ ((refd 0 true 0).port 1).ring = true
    ∧ (refd 0 true 0).inReset 0x11 = false ∧ ((refd 0 true 0).net.seen.any fun y => y.1 = (Config.mac + 1, 9, 1) && (refd 0 true 0).tick < y.2 + 400) = false
    ∧ (heardSync.net.seen.any fun y => y.1 = (7, (9#16).toNat, 1) && heardSync.tick < y.2 + 400) = true
    ∧ (heardSync.net.seen.any fun y => y.1 = (7, (9#16).toNat, 2) && heardSync.tick < y.2 + 400) = true
    ∧ ((timed 0).port 0).pdelayAt = some 0 ∧ 0 + 1000 ≤ (timed 0).tick ∧ ((timed 1).port 0).pdelayAt = some 1 ∧ (timed 1).tick < 1 + 1000
    ∧ (∀ y, ((timed 0).port 0).pdelayAt = some y → y + 1000 ≤ (timed 0).tick) ∧ (timed 0).net.ports.length = 2 ∧ (timed 0).inReset 0x11 = false
    ∧ (refd 4 false 0).inReset 0x11 = false := by
  and_intros <;> first | decide +kernel | omega

def mastered : State := let s := refd 1 true 0; { s with net := { s.net with bestMaster := some (4, 9) } }

theorem witness_TimeReferences : (refd 1 true 0).master = true ∧ (refd 1 true 0).ref ≠ 0 ∧ (refd 1 true 0).time.refValid = true
    ∧ (refd 1 false 16).ref ≠ 0 ∧ (refd 1 false 16).time.refValid = false ∧ refNeed (refd 1 false 16).ref ≤ (refd 1 false 16).time.refCount
    ∧ (refd 2 true 0).time.offTick ≠ some (refd 2 true 0).tick ∧ 1000 < (1001 : Int).natAbs ∧ mastered.net.bestMaster = some (4, 9) ∧ mastered.time.refValid = true ∧ mastered.ref = 1 ∧ (refd 2 true 0).ticking = true ∧ (refd 2 true 0).ref = 2 ∧ (refd 3 true 0).ref = 3 ∧ ((refd 0 true 0).port 1).link = true ∧ (refd 0 true 0).ref ≠ 1
    ∧ (refd 1 true 0).ref = 1 ∧ (BitVec.ofNat 8 (refd 1 true 0).ptpDomain).toNat = (refd 1 true 0).ptpDomain ∧ (refd 1 true 0).net.bestMaster = none := by
  decide +kernel

theorem witness_TimeReferences_ports : (linked (up 9)).net.ports.length = 2 ∧ (linked (up 9)).ticking = true ∧ ((linked (up 9)).port 1).link = true
    ∧ (∀ y, (refd 4 false 0).net.syncAt = some y → y + 125 ≤ (refd 4 false 0).tick) ∧ (∀ y, (refd 4 false 0).net.announceAt = some y → y + 1000 ≤ (refd 4 false 0).tick)
    ∧ (refd 4 false 0).master = true ∧ (refd 4 false 0).ptpMaster = true ∧ (up 9).opens 0x2810 = true ∧ (up 9).master = true
    ∧ (domOf (fun d => { d with standby := true }) (up 9)).opens 0x2810 = true ∧ (domOf (fun d => { d with standby := true }) (up 9)).master = false := by
  decide +kernel

/-! Witnesses: ring commands. -/

/-- A module with a command ring 0, a completion ring 1, an event ring 2 and a record ring 3, and one descriptor waiting in ring 0. -/
def ringed (s : State) : State :=
  { s with hif := { s.hif with rings := [(0, { enable := true, active := true, link := 1, log2 := 4, pidx := 1, base := Pair.of 4096, shadow := Pair.of 256 }),
    (1, { enable := true, active := true, type := 1, log2 := 4, base := Pair.of 8192, shadow := Pair.of 264 }),
    (2, { enable := true, active := true, type := 2, link := 15, log2 := 4, base := Pair.of 16384, shadow := Pair.of 272 }),
    (3, { enable := true, active := true, type := 3, log2 := 4, base := Pair.of 32768, shadow := Pair.of 280 })] } }

/-- The descriptor with its CRC. -/
def crced (c : Cmd) : Cmd := { c with crc := crc16 ((c.words.map (leBytes 4)).flatten) }
def here (op : BitVec 8) : Cmd := { ring := 0, op := op, dev := 2 }
def cls2 (op : BitVec 8) : Cmd := { here op with cls := 2, arg4 := 4096 }

theorem witness_GustCommands : ∀ c ∈ [crced (here 0x20), crced { here 0x21 with arg2 := 2 ^ 24 }, crced { here 0x22 with arg2 := 1 }, crced (here 0x23), crced (here 0x24),
      crced (here 0x25), crced { here 0x26 with dev := 0 }], Brings c.op.toNat c (ringed (up 9)) ∧ (ringed (up 9)).schedsFull = false
    ∧ ((gustInput c (ringed (up 9))).targetDev = 0xFF ∨ c.op.toNat = 0x26 ∨ (gustInput c (ringed (up 9))).targetDev = (ringed (up 9)).dom.dev)
    ∧ (served 9).domain = true ∧ (served 9).dom.cmds = [] := by
  unfold Brings
  decide +kernel

def signed : List Byte := leBytes 4 0x52595542 ++ [1, 0, 0, 0] ++ List.replicate 24 0 ++ sha256 [] ++ List.replicate 192 0

def begun (n : Nat) (s : State) : State := { s with rec_ := { s.rec_ with blocks := [{ tick := n }] } }

theorem witness_ModuleCommands_config : Brings 0x01 (crced (here 1)) (ringed (up 9)) ∧ (here 1).dev.toNat = (ringed (up 9)).dom.dev
    ∧ Brings 0x02 (crced { here 2 with arg1 := 12 }) (ringed (at_ 0 (up 9))) ∧ StartsHere (crced { here 2 with arg1 := 12 }) (ringed (at_ 0 (up 9)))
    ∧ modeForAll { here 2 with arg1 := 12 } (ringed (up 9)) = false ∧ (at_ 0 (up 9)).time.phase < 3
    ∧ Brings 0x03 (crced (cls2 3)) (ringed (up 9)) ∧ StartsHere (crced (cls2 3)) (ringed (up 9))
    ∧ Brings 0x10 (crced (cls2 0x10)) (ringed (up 7)) ∧ StartsHere (crced (cls2 0x10)) (ringed (up 7)) ∧ (up 7).sys.mode ∈ [7, 8, 9, 10, 12] ∧ (up 7).mem.loads = []
    ∧ (domOf (fun d => { d with island := true, refused := true, islandCause := 5 }) (up 9)).refusedIsland = true
    ∧ ((ringed (up 7)).chan 13).busy = false ∧ (crced { cls2 0x10 with buf := [7] }).buf ≠ []
    ∧ (ringed (up 7)).commitPending = false ∧ (imageFault (ringed (up 7)).stageCtx [] 0).isSome = true := by
  unfold Brings StartsHere
  decide +kernel

def committing (s : State) : State := { s with dom := { s.dom with level := 1 }, cfg := { s.cfg with staged := some { seq := 7, level := 1, deviceMask := 4 } } }

theorem witness_ModuleCommands_commit : Brings 0x11 (crced { here 0x11 with dev := 0, arg1 := 7 }) (ringed (committing (up 9))) ∧ commitMode (up 9).sys.mode = true
    ∧ commitFault 7 (ringed (committing (up 9))) = none
    ∧ Brings 0x12 (crced { here 0x12 with dev := 0, arg1 := 7 }) (ringed (domOf (fun d => { d with pend := some { id := 7, apply := 1020 } }) (up 9)))
    ∧ (ringed (domOf (fun d => { d with pend := some { id := 7, apply := 1020 } }) (up 9))).dom.pend = some { id := 7, apply := 1020 }
    ∧ ({ id := 7, apply := 1020 } : Pend).cancel = none ∧ (up 9).tick + 20 ≤ 1020 := by
  unfold Brings
  decide +kernel

def staging : Cmd := crced { cls2 0x70 with arg2 := 256, buf := signed }

theorem witness_ModuleCommands_images : Brings 0x70 staging (ringed (up 9)) ∧ StartsHere staging (ringed (up 9))
    ∧ buryarOk staging.buf (staging.arg1.toNat % 2) staging.arg2.toNat = true ∧ (parseBuryar staging.buf).hash = true
    ∧ Brings 0x71 (crced (here 0x71)) (ringed { flashed with sys := (up 7).sys }) ∧ StartsHere (crced (here 0x71)) (ringed { flashed with sys := (up 7).sys })
    ∧ (up 7).sys.mode = 7 ∧ (flashed.mem.image 0).accepted = true ∧ flashed.mem.ucCopy = some 0 ∧ listed (flashed.mem.image 0) (flashed.mem.image 2) = true := by
  unfold Brings StartsHere
  decide +kernel

theorem witness_ModuleCommands_reads :
    Brings 0x61 (crced { cls2 0x61 with arg2 := 1, arg3 := 2, arg4 := 0 }) (ringed (up 9)) ∧ StartsHere (crced { cls2 0x61 with arg2 := 1, arg3 := 2, arg4 := 0 }) (ringed (up 9))
    ∧ Brings 0x60 (crced { cls2 0x60 with arg0 := 1, arg1 := 990, arg2 := 3 * 65536, arg3 := 1 }) (ringed (begun 5 (up 9)))
    ∧ StartsHere (crced { cls2 0x60 with arg0 := 1, arg1 := 990, arg2 := 3 * 65536, arg3 := 1 }) (ringed (begun 5 (up 9))) ∧ (up 9).sys.mode ≠ 11
    ∧ (begun 5 (up 9)).rec_.blocks.getLast? = some { tick := 5 }
    ∧ 5 ≤ (jobOf (crced { cls2 0x60 with arg0 := 1, arg1 := 990, arg2 := 3 * 65536, arg3 := 1 }) (ringed (begun 5 (up 9)))).first := by
  unfold Brings StartsHere
  decide +kernel

def paneled : Epoch :=
  { panel := some { panels := [{ present := true, width := 8, height := 4, railNom := [2200, -2000, 1500, -1500] },
                               { present := true, width := 8, height := 4, holdPeriod := 100, builtin := true }] } }

def excited : State := fieldOf (fun f => { f with route := { cells := [{ pPin := 0, nPin := 1, excSrc := 0 }] } }) (up 7)

theorem witness_UnitCommands_field : (here 0x30).arg1.toNat % 2 = 0 ∧ (up 7).panels.length = 2
    ∧ Brings 0x30 (crced { cls2 0x30 with arg0 := 64, arg1 := 1 }) (ringed (up 7)) ∧ StartsHere (crced { cls2 0x30 with arg0 := 64, arg1 := 1 }) (ringed (up 7))
    ∧ (up 7).sys.mode = 7 ∧ (up 7).field.survey = none ∧ (up 7).field.lead = none ∧ (up 7).field.surveyEnd = none
    ∧ Brings 0x31 (crced (here 0x31)) (ringed excited) ∧ StartsHere (crced (here 0x31)) (ringed excited)
    ∧ excited.field.route.cellR 0 = { pPin := 0, nPin := 1, excSrc := 0 } ∧ excited.sys.mode = 7
    ∧ Brings 0x42 (crced { here 0x42 with arg1 := 0xFFFF, arg2 := 60000 }) (ringed (up 7)) ∧ StartsHere (crced { here 0x42 with arg1 := 0xFFFF, arg2 := 60000 }) (ringed (up 7))
    ∧ 7 ≤ (up 7).sys.mode ∧ (up 7).sys.mode ≤ 11 ∧ (ringed (up 7)).inReset 0x14 = false ∧ (ringed (up 7)).inReset 0x13 = false := by
  unfold Brings StartsHere
  decide +kernel

def drawing : Cmd := crced { cls2 0x40 with arg3 := 4 * 65536 + 8, arg4 := 4096 }

/-- A module with block `b` in its reset. -/
def blockDown (b : Nat) : State := ringed (sysOf (fun y => { y with blkState := 2, blkCode := b }) excited)

theorem witness_UnitCommands_aborted : ∀ x ∈ [(crced { cls2 0x30 with arg0 := 64, arg1 := 1 }, 0x14), (crced (here 0x31), 0x14), (drawing, 0x12),
      (crced (here 0x41), 0x12), (crced { here 0x42 with arg1 := 0xFFFF, arg2 := 60000 }, 0x13)],
    Brings x.1.op.toNat x.1 (blockDown x.2) ∧ StartsHere x.1 (blockDown x.2) ∧ (blockDown x.2).inReset x.2 = true := by
  unfold Brings StartsHere
  decide +kernel

theorem witness_UnitCommands_panels : Brings 0x40 drawing (ringed (epochOf paneled (up 9))) ∧ StartsHere drawing (ringed (epochOf paneled (up 9)))
    ∧ (paneled.panelSet 0).present = true ∧ (paneled.panelSet 0).builtin = false ∧ panelMode 9 0 = true
    ∧ regionOk (paneled.panelSet 0) (jobOf drawing (ringed (epochOf paneled (up 9)))).region = true ∧ ((up 9).panel 0).pendHost = none
    ∧ Brings 0x41 (crced (here 0x41)) (ringed (epochOf paneled (up 9))) ∧ StartsHere (crced (here 0x41)) (ringed (epochOf paneled (up 9)))
    ∧ (((up 9).panel 0).pendClear.bind (·.job)).isSome = false ∧ (ringed (epochOf paneled (up 9))).inReset 0x12 = false := by
  unfold Brings StartsHere
  decide +kernel

theorem witness_UnitCommands_audit : Brings 0x80 (crced (here 0x80)) (ringed auditing) ∧ StartsHere (crced (here 0x80)) (ringed auditing)
    ∧ 8 ≤ auditing.sys.mode ∧ auditing.sys.mode ≤ 11 ∧ auditing.eng.audit = none ∧ auditing.eng.other = 0
    ∧ auditing.rec_.ckpts.find? (·.ok) = some { ckpt with tick := 1999 } ∧ auditing.rec_.lost = []
    ∧ (auditing.rec_.blocks.any fun b => b.test && 1999 < b.tick + 992 && b.tick ≤ 1999) = false ∧ (auditing.rec_.ckpts.any fun x => x.ok && x.tick + 992 = 1999) = true
    ∧ Brings 0x81 (crced { here 0x81 with arg1 := 0x10 }) (ringed (up 9)) ∧ StartsHere (crced { here 0x81 with arg1 := 0x10 }) (ringed (up 9))
    ∧ blockPermitted 0x10 (ringed (up 9)) = true ∧ (up 9).blockRunning = false := by
  unfold Brings StartsHere
  decide +kernel

/-- The 32-byte DMA descriptor of `n` bytes from `src` to host memory. -/
def dmaDesc (src n : Nat) : List Byte :=
  let b := leBytes 8 src ++ leBytes 8 4096 ++ leBytes 4 n ++ List.replicate 8 0
  b ++ leBytes 2 (crc16 b).toNat ++ [0, 0]
def chanAt (c : Chan) (s : State) : State := { s with mem := { s.mem with chans := [(0, c)] } }
def starting : Cmd := crced { cls2 0x50 with arg2 := 4096, arg4 := 0, buf := dmaDesc (2 ^ 60 + 0x3F8FFFC0) 64 }

theorem witness_DmaCommands : Brings 0x50 starting (ringed (up 9)) ∧ StartsHere starting (ringed (up 9)) ∧ (up 9).sys.mode ≠ 11
    ∧ descCrcOk starting.buf = true ∧ descRsv starting.buf = false ∧ u32 starting.buf 16 ≠ 0
    ∧ windowOk false (u64 starting.buf 0) (u32 starting.buf 16) (up 9) = true ∧ windowOk true (u64 starting.buf 8) (u32 starting.buf 16) (up 9) = true
    ∧ adrLost (u64 starting.buf 0) (up 9) = false ∧ adrLost (u64 starting.buf 8) (up 9) = false ∧ ((up 9).chan 0).busy = false ∧ (up 9).inReset 0x10 = false
    ∧ Brings 0x51 (crced (here 0x51)) (ringed (up 9)) ∧ StartsHere (crced (here 0x51)) (ringed (up 9)) ∧ ((chanAt { state := 1, len := 64 } (ringed (up 9))).chan 0).state = 1
    ∧ Brings 0x52 (crced (here 0x52)) (ringed (up 9)) ∧ StartsHere (crced (here 0x52)) (ringed (up 9))
    ∧ ((chanAt { state := 4, len := 64 } (ringed (up 9))).chan 0).state = 4 ∧ ((chanAt { state := 4, len := 64 } (ringed (up 9))).chan 0).pauser = none
    ∧ ((chanAt { state := 4, len := 64 } (ringed (up 9))).chan 0).buf = [] ∧ ((chanAt { state := 4, len := 64 } (ringed (up 9))).chan 0).feed = []
    ∧ ((chanAt { state := 1, len := 64 } (ringed (up 9))).chan 0).failing = 0 := by
  unfold Brings StartsHere
  decide +kernel

theorem witness_onlyBusy (c : Chan) : (chanAt c (up 9)).onlyBusy 0 ∧ (up 9).onlyBusy 14 := by
  constructor
  · intro n h
    simp [State.chan, chanAt, tget, Ne.symm h]
    rfl
  · intro n _
    rfl

def remote : State := domOf (fun d => { d with admitted := true, level := 1, cseqNext := 255, creditRet := 254, doneFrames := [(254, { tag := 1, op := 1, dev := 2, status := 0, used := 5 })] }) (worker 9)
def hdrC : Hdr := { hdr with type := 3, cls := 1, src := 0, dst := 2 }
def later (op : BitVec 8) : Cmd :=
  let c : Cmd := { here op with cls := 1, apply := 5000 }
  { c with crc := crc16 ((c.words.map (leBytes 4)).flatten) }
def full : State := let s := remote; { s with hif := { s.hif with jobs := List.replicate 16 { cmd := here 3, origin := .frame 254, start := 2 ^ 40 } } }
def hdrF : Hdr := { hdrC with type := 4, src := 63, level := 0 }
def aCompl : Compl := { tag := 1, op := 1, dev := 2, status := 0, used := 5 }
def flight : Flight := { cseq := 9, cmd := here 1, origin := .ring 0 4, sent := 900 }
def flying (f : Flight) : State := domOf (fun d => { d with peers := [(63, { admitAt := some 1, flights := [f] })] }) (served 9)

theorem witness_CommandFrames : remote.takes hdrC 3 1 = true ∧ remote.dom.serving = false ∧ hdrC.dst = remote.dom.dev ∧ remote.dom.admitted = true
    ∧ remote.sys.mode ≠ 5 ∧ remote.dom.cseqNext = (255#8).toNat ∧ (here 1).op = 0x01 ∧ remote.dom.cseqNext < 256
    ∧ remote.queueRoom = true ∧ full.queueRoom = false ∧ full.takes hdrC 3 1 = true ∧ full.dom.cseqNext = (255#8).toNat
    ∧ 16 ≤ (remote.dom.creditRet + 256 - (255#8).toNat) % 256 ∧ (later 0x41).op ∉ [0x01, 0x02, 0x11, 0x12] ∧ remote.tick < (later 0x41).apply.toNat
    ∧ frameFault 0 (later 0x41) remote = 0
    ∧ 1 ≤ (remote.dom.cseqNext + 256 - (254#8).toNat) % 256 ∧ (remote.dom.cseqNext + 256 - (254#8).toNat) % 256 ≤ 16
    ∧ (remote.dom.doneFrames.find? fun y => y.1 = (254#8).toNat).isSome = true
    ∧ (flying flight).takes hdrF 4 1 = true ∧ (flying flight).dom.serving = true
    ∧ (((flying flight).peer 63).flights.find? fun y => y.cseq = (9#8).toNat) = some flight ∧ flight.cmd.op ≠ 0x60 ∧ flight.cmd.op ≠ 0x61
    ∧ remote.inReset 0x11 = false ∧ ((flying flight).from hdrF).srcOf hdrF = 63
    ∧ ((((flying flight).from hdrF).peer 63).flights.find? fun y => y.cseq = (9#8).toNat && (hdrF.src < 64 || (y.cmd.tag.toNat = 0 && y.cmd.op.toNat = 1))) = some flight
    ∧ resultLen aCompl = 0 ∧ resultLen { aCompl with op := 0x60, b := 64 } ≠ 0 ∧ (flying flight).mem.fetches = [] ∧ (∀ m < 16, ((flying flight).chan m).busy = false)
    ∧ flight.origin = .ring 0 4 ∧ (((flying flight).peer 63).flights.find? fun y => y.cseq = (9#8).toNat && y.covered.isNone) = some flight
    ∧ flight.sent + 100 ≤ (flying flight).tick ∧ flight.repeats < 3
    ∧ (((flying { flight with covered := some 0 }).peer 63).flights.find? fun y => y.cseq = (9#8).toNat) = some { flight with covered := some 0 }
    ∧ 0 + 1000 ≤ (flying flight).tick := by decide +kernel

/-! Witnesses: rings, DMA and registers. -/

def ring63 (r : Ring) : State := let s := ringed (up 9); { s with hif := { s.hif with rings := s.hif.rings ++ [(63, r)] } }
def eventCfg : Word := 0x83C00402#32

theorem witness_RingSetup : (ring63 {}).opens (ringOff 63 + 8) = true ∧ eventCfg.getLsbD 31 = true
    ∧ ((ring63 { base := Pair.of 64, shadow := Pair.of 8 }).ring 63).enable = false
    ∧ ringRefused 63 (((ring63 { base := Pair.of 64, shadow := Pair.of 8 }).ring 63).cfg 63 eventCfg) (ring63 { base := Pair.of 64, shadow := Pair.of 8 }) = false
    ∧ ringRefused 63 (((ring63 {}).ring 63).cfg 63 eventCfg) (ring63 {}) = true
    ∧ ((ring63 { enable := true }).ring 63).enable = true ∧ ((ring63 { enable := true }).ring 63).cfg 63 eventCfg ≠ (ring63 { enable := true }).ring 63
    ∧ (0 : Word).getLsbD 31 = false ∧ 63 ∉ (ring63 { enable := true }).hif.heldBack ∧ (ring63 { enable := true }).hif.rereads = [] := by decide +kernel

/-- Ring 63 due on vector 0, which is not masked, with MSI-X on. -/
def sending63 (p : PciCfg) : State :=
  let s := ring63 { enable := true, unsig := 1 }
  { s with hif := { s.hif with mask := 0, pci := { p with msixOn := true } } }

theorem witness_DoorbellsAndReset : (ringed (up 9)).path = true ∧ ((ringed (up 9)).ring 63).enable = false ∧ ((ringed (up 9)).ring 0).enable = true
    ∧ ((ringed (up 9)).ring 0).ring 17 = none ∧ (((ringed (up 9)).ring 0).ring 16).isSome = true ∧ (((ringed (up 9)).ring 0).ring 16).all (fun q => q.type ≠ 3) = true
    ∧ (sending63 {}).hif.pci.msixOn = true ∧ ((sending63 {}).ring 63).due 1000 = true ∧ (sending63 {}).tick = 1000 ∧ (sending63 {}).hif.pci.msixMask = false
    ∧ (sending63 { msixMask := true }).hif.pci.msixMask = true ∧ ((sending63 { msixMask := true }).ring 63).due 1000 = true ∧
    ((ring63 { enable := true, unsig := 1 }).ring 63).due 1000 = true ∧ (ringed (up 9)).hif.mask.getLsbD ((ringed (up 9)).ring 0).vector = true
    ∧ (0#64).getLsbD 0 = false ∧ (up 9).hif.pci.msixOn = false ∧ ({ msixOn := true } : PciCfg).msixOn = true ∧ ({ msixOn := true } : PciCfg).msixMask = false
    ∧ ({ msixOn := true, msixMask := true } : PciCfg).msixMask = true ∧ (up 4).hosted = true ∧ 4 ≤ (up 4).sys.mode := by decide +kernel

def waiting : State :=
  let s := ringed (up 9)
  { s with hif := { s.hif with rings := [(1, { (s.ring 1) with waitC := [aCompl] }), (2, { (s.ring 2) with waitE := [[1, 2, 3, 4, 5, 6, 7]], pidx := 2 ^ 32 - 1, cidx := 2 ^ 32 - 16 })] } }

theorem witness_RingWrites : (waiting.ring 1).live = true ∧ (waiting.ring 1).room = true ∧ (waiting.ring 1).type = 1 ∧ (waiting.ring 1).waitC = [aCompl]
    ∧ (waiting.ring 2).live = true ∧ (waiting.ring 2).room = true ∧ (waiting.ring 2).type = 2 ∧ (waiting.ring 2).waitE = [[1, 2, 3, 4, 5, 6, 7]]
    ∧ [1, 2, 3, 4, 5, 6, 7].length = 7 ∧ waiting.hif.rereads = []
    ∧ (waiting.ring 1).shadow.applied + 8 ≤ (waiting.ring 1).base.applied + 32 * ((waiting.ring 1).pidx % (waiting.ring 1).size) := by decide +kernel

def logging (c : Nat) : State := ring63 { enable := true, active := true, type := 4, log2 := 4, pidx := 16, cidx := c, base := Pair.of 65536, shadow := Pair.of 288, dropped := 3 }

theorem witness_RingWrites_log : ((logging 1).ring 63).type = 4 ∧ ((logging 1).ring 63).live = true ∧ ((logging 1).ring 63).room = true
    ∧ (∀ m : Fin 64, m ≠ 63 → ((logging 1).ring m).type ≠ 4) ∧ ((logging 1).ring 63).shadow.applied + 8 ≤ ((logging 1).ring 63).base.applied
    ∧ ((logging 0).ring 63).room = false ∧ ((logging 0).ring 63).live = true := by decide +kernel

def moving : Chan := { state := 0, len := 64, src := Pair.of (2 ^ 60 + 0x3F8FFFC0), dst := Pair.of 4096 }

theorem witness_DmaControl : (0 : Fin 16).val < 12 ∧ (11 : Fin 16).val < 12 ∧ (up 6).opens (chanOff 11) = true ∧ (0x80000000#32).getLsbD 31 = true
    ∧ (0x80000000#32).getLsbD 30 = false ∧ ((chanAt { moving with state := 4 } (up 9)).chan 0).busy = true ∧ ((chanAt moving (up 9)).chan 0).busy = false
    ∧ ((chanAt moving (up 9)).chan 0).len ≠ 0 ∧ adrOk ((chanAt moving (up 9)).chan 0).src.applied = true ∧ adrOk ((chanAt moving (up 9)).chan 0).dst.applied = true
    ∧ (chanAt moving (up 9)).inReset 0x10 = false ∧ transferOk ((chanAt moving (up 9)).chan 0) (chanAt moving (up 9)) = true ∧ (0x40000000#32).getLsbD 30 = true
    ∧ (0x20000000#32).getLsbD 29 = true ∧ (0x20000000#32).getLsbD 31 = false ∧ (0x20000000#32).getLsbD 30 = false
    ∧ ((chanAt { moving with state := 1 } (up 9)).chan 0).state = 1 ∧ (0 : Word).getLsbD 29 = false
    ∧ ((chanAt { moving with state := 4 } (up 9)).chan 0).state = 4 ∧ ((chanAt { moving with state := 4 } (up 9)).chan 0).pauser = none
    ∧ ((chanAt { moving with state := 1 } (up 9)).chan 0).failing = 0 := by decide +kernel

def sending : Chan := { state := 1, len := 128, src := Pair.of (2 ^ 60 + 0x3F8FFF80), dst := Pair.of (4 * 2 ^ 60 + 63 * 2 ^ 54) }
def bulk : BulkReq := { xid := 5, dev := 63, frames := [{ op := 3, chan := 0, xid := 5 }], len := 64, sent := 900 }

theorem witness_DmaEnds :
    let s := chanAt { moving with state := 1 } (up 9)
    let d := chanAt { moving with state := 3, buf := List.replicate 64 0 } (up 9)
    let r := chanAt { sending with bulk := some bulk, buf := List.replicate 64 0 } (served 9)
    (s.chan 0).state = 1 ∧ (s.chan 0).fromRemote = false ∧ (s.chan 0).toRemote = false ∧ (s.chan 0).feed = [] ∧ s.mem.loads = []
    ∧ (List.replicate 64 (0 : Byte)).length = (s.chan 0).unread ∧ (s.chan 0).buf.length ≤ (s.chan 0).len ∧ sending.toRemote = true ∧ sending.fromRemote = false
    ∧ (d.chan 0).state = 3 ∧ granted 0 d = true ∧ (d.chan 0).failing = 0 ∧ 12 ≤ (15 : Fin 16).val
    ∧ 1 ≤ (d.chan 0).state ∧ (d.chan 0).state ≤ 3 ∧ errFits (d.chan 0).src.applied ((1 : Fin 3).val + 1) = true
    ∧ (r.chan 0).bulk = some bulk ∧ bulk.sent + 100 ≤ r.tick ∧ bulk.repeats < 3 ∧ 3 ≤ ({ bulk with repeats := 3 } : BulkReq).repeats ∧ bulk.isWrite = true
    ∧ r.takes { hdr with type := 9, cls := 2, src := 63, level := 0 } 9 2 = true ∧ (r.chan 0).toRemote = true ∧ (r.chan 0).buf ≠ [] ∧ s.mem.fetches = [] ∧ bulk.dev = (r.from { hdr with type := 9, cls := 2, src := 63, level := 0 }).srcOf { hdr with type := 9, cls := 2, src := 63, level := 0 }
    ∧ 63 < (d.chan 0).unread + 64 ∧ ([] : List Byte).length < (s.chan 0).unread ∧ (s.chan 0).buf = [] ∧ r.sys.mode ≠ 11 ∧ r.inReset 0x11 = false
    ∧ (r.chan 0).len ≤ 128 ∧ bulk.len < (r.chan 0).len ∧ (r.chan 0).failing = 0 ∧ (r.chan 0).feed = [] ∧ (s.chan 0).failing = 0
    ∧ ({ op := 4, chan := 0, xid := 5, rlen := 64 } : Bulk).data.length ≤ 1024 ∧ bulk.xid = 5 ∧ bulk.dev = 63 ∧ bulk.len = 64 := by
  decide +kernel

/-- An image that waits for channel 13, on its way to device 63. -/
def loading : State := { manager 9 0 with mem := { (manager 9 0).mem with loads := [({ here 0x10 with dev := 63, buf := [7] }, .ring 0 4)] } }

theorem witness_DmaEnds_load : loading.mem.loads = [({ here 0x10 with dev := 63, buf := [7] }, .ring 0 4)] ∧ loading.isAdmitted 63 = true
    ∧ (loading.peer 63).inFlight < 16 := by decide +kernel

theorem witness_Registers : (up 9).endpoint.isSome = true ∧ (worker 9).endpoint = none ∧ PciSpace.bar2 ≠ .cfg ∧ (up 9).path = true ∧ (2 : Fin 9).val ≠ 4 ∧ (2#16).toNat % 4 ≠ 0 ∧ regKnown 0x0018 = false ∧ (0x0018#16).toNat % 4 = 0
    ∧ regKnown 0x387C = true ∧ 0x387C ∉ [0x0800, 0x0C08, 0x0C14, 0x2818] ∧ windowOpen 9 0x387C = true ∧ (up 9).opens 0x0800 = true ∧ (up 9).opens 0x2818 = true
    ∧ (up 9).opens 0x000C = true ∧ (0x4D520005#32).toNat / 65536 = 0x4D52 ∧ (0x4D520005#32).toNat % 16 = 5 ∧ (up 5).ticking = true ∧ (up 5).opens 0x000C = true
    ∧ (0 : Word).toNat / 65536 ≠ 0x4D52 ∧ (up 9).opens 0x040C = true ∧ (0x52420010#32).toNat / 65536 = 0x5242 ∧ (up 9).blockRunning = false
    ∧ (0x52420010#32).toNat % 256 ∈ [0x10, 0x11, 0x12, 0x13, 0x14] ∧ blockPermitted 0x10 (up 9) = true ∧ (up 9).opens 0x080C = true ∧ (up 9).master = true
    ∧ (up 9).opens 0x0808 = true ∧ (ringed (up 9)).opens (ringOff 0) = true ∧ ((ringed (up 9)).ring 0).enable = true
    ∧ (up 9).opens 0x380C = true ∧ (up 9).dbgLocked = false ∧ (0x554C0001#32).getLsbD 0 = true ∧ (0x554C0001#32).toNat / 65536 = 0x554C := by decide +kernel

/-- A module with a ring that is not enabled, and a channel that is idle or busy, at an open window. -/
def plain : State := chanAt moving (ring63 {})
def busy : State := chanAt { moving with state := 1 } (ring63 { enable := true })

theorem witness_Registers_writes : (∀ o ∈ [0x0000, 0x3400, 0x3410, 0x0C04, 0x3000, 0x2804, 0x3840, 0x386C, ringOff 63 + 12, ringOff 63 + 4, chanOff 11 + 0x18, chanOff 0 + 0x0C,
      chanOff 0 + 0x14, 0x3808], plain.opens o = true) ∧ plain.panels.length = 2 ∧ (5#32).toNat % 65536 ≠ 0 ∧ (5#32).toNat % 65536 ≠ 0xFFFF ∧ (up 7).sys.mode = 7
    ∧ (up 7).opens 0x2804 = true ∧ plain.sys.mode ≠ 7 ∧ plain.dbgLocked = false ∧ (plain.ring 63).enable = false ∧ (busy.ring 63).enable = true ∧ (plain.chan 0).busy = false
    ∧ (busy.chan 0).busy = true ∧ (BitVec.ofNat 16 (ringOff 63 + 12)).toNat = ringOff 63 + 12 ∧ regKnown 0x0018 = false ∧ (up 5).path = true
    ∧ regKnown 0x2800 = true ∧ windowOpen 5 0x2800 = false := by decide +kernel

/-- R488: a set-up register keeps what is written, one that is read only does not. -/
theorem test_register_write : (match exec (.registerWrite .bar0 0x3400 4 true 0xFFFC03E9) plain with | .next t => regValue t 0x3400 | _ => 0) = 0x000003E9
    ∧ (match exec (.registerWrite .bar0 0x0000 4 true 0) plain with | .next t => regValue t 0 | _ => 0) = regValue plain 0 := by decide +kernel

/-! Witnesses: panels, measurements, the console and the tick. -/

def panelled (p : Panel) (s : State) : State := { epochOf paneled s with panels := [p, p], railCfg := 0x000303E8 }

theorem witness_PanelOperation : (panelled {} (up 9)).panels.length = 2 ∧ (paneled.panelSet 0).present = true
    ∧ (let s := panelled { recovered := true, pendClear := some { kind := 1 } } (up 9)
       (s.panel 0).op = none ∧ (s.panel 0).recovered = true ∧ panelMode s.sys.mode 0 = true ∧ s.panelEnabled 0 = true ∧ (s.panel 0).railFail = none
       ∧ s.sys.powerFail = none ∧ s.inReset 0x12 = false ∧ (s.panel 0).interrupted = none ∧ (s.panel 0).pendClear = some { kind := 1 })
    ∧ (let s := panelled { railsUp := true, railAt := some 990, op := some { kind := 1 } } (up 9)
       (s.panel 0).railsUp = true ∧ (s.panel 0).rails = false ∧ railsGood (s.cfg.e.panelSet 0) 0 [22000, -20000, 15000, -15000] = true
       ∧ (s.panel 0).railAt.all (fun t => decide (t + (if (0 : Fin 2).val = 0 then 10 else 5) ≤ s.tick)) = true
       ∧ railsGood (s.cfg.e.panelSet 0) 0 [0, 0, 0, 0] = false ∧ (s.panel 0).op = some { kind := 1 })
    ∧ ((panelled { railsUp := true, railAt := some 996 } (up 9)).panel 1).railAt.all (fun t => decide (t + (if (1 : Fin 2).val = 0 then 10 else 5) ≤ (up 9).tick)) = false
    ∧ (let s := panelled { rails := true, op := some { kind := 1 }, frames := 1 } { up 9 with time := { (up 9).time with num := 1008 } }
       frameSlot 0 s.tick = true ∧ (s.panel 0).op = some { kind := 1 } ∧ (s.panel 0).rails = true ∧ (s.panel 0).frame < (s.panel 0).frames
       ∧ (s.panel 0).inFrame s.tick = false)
    ∧ (let s := panelled { op := some { kind := 1 }, stopping := true, frameAt := some 990 } (up 9)
       (s.panel 0).op = some { kind := 1 } ∧ (s.panel 0).stopping = true ∧ (s.panel 0).inFrame 996 = false ∧ s.sys.powerFail = none)
    ∧ ({ frames := 1, frame := 1 } : Panel).stopping = false
    ∧ ((panelled { rails := true, op := some { kind := 1 }, frames := 1, frame := 1 } (up 9)).panel 0).frames ≤ 1 ∧ ({ kind := 1 } : PanelOp).redraw = false
    ∧ ({ kind := 1, redraw := true } : PanelOp).redraw = true ∧ newestPlane paneled 0 { images := [{ pixels := [7] }] } = some [7]
    ∧ ((panelled { railFail := some 0 } (up 9)).panel 0).railFail = some 0 ∧ 0 + 1000 ≤ (up 9).tick ∧ (panelled { railFail := some 0 } (up 9)).panelEnabled 0 = true
    ∧ panelMode 9 0 = true
    ∧ (let s := panelled { rails := true, op := some { kind := 1 }, frames := 1, frame := 1, frameAt := some 990 } (up 9)
       (s.panel 0).op = some { kind := 1 } ∧ (s.panel 0).frames ≤ (s.panel 0).frame ∧ (s.panel 0).stopping = false ∧ s.frameOver (s.panel 0) = true) := by decide +kernel

theorem witness_PanelUpkeep : (paneled.panelSet 1).present = true
    ∧ (let s := panelled { railsUp := true } (up 9)
       (s.panel 1).railsUp = true ∧ (s.panel 1).op = none ∧ (s.panel 1).endTick + s.railHold ≤ s.tick ∧ (s.panel 1).interrupted = none
       ∧ (s.panel 1).pendClear = none ∧ (s.panel 1).pendPage = none ∧ (s.panel 1).pendHost = none ∧ (s.panel 1).pendHold = false)
    ∧ (paneled.panelSet 1).holdPeriod ≠ 0 ∧ ((panelled {} (up 9)).panel 1).endTick + (paneled.panelSet 1).holdPeriod ≤ (up 9).tick
    ∧ (up 9).tick % 1000 = 0 ∧ ((panelled {} (up 9)).panel 1).crc = crc32 (((panelled {} (up 9)).panel 1).held [])
    ∧ ((panelled { old := [0] } (up 9)).panel 1).crc ≠ crc32 (((panelled { old := [0] } (up 9)).panel 1).held [(0, 1)])
    ∧ (paneled.panelSet 1).builtin = true ∧ published.decides = true ∧ 3 ≤ (at_ 3 (up 9)).time.phase ∧ (blockAt 1000 (up 9)).rec_.block = some { tick := 1000 }
    ∧ published.dec.lastTick = some published.tick ∧ (panelled {} (up 9)).cfg.has = true ∧ ((panelled {} (up 9)).panel 1).recovered = false
    ∧ panelMode 9 1 = true ∧ (up 9).rtc.oscStop = true ∧ readJournal [0] = none
    ∧ (let s := panelled {} (at_ 3 (blockAt 1000 published))
       (s.eNow.panelSet 1).present = true ∧ (s.eNow.panelSet 1).builtin = true ∧ s.decides = true ∧ s.tick % 1000 = 0 ∧ 3 ≤ s.time.phase
       ∧ s.rec_.block = some { tick := 1000 } ∧ s.dec.lastTick = some s.tick ∧ s.panels.length = 2) := by
  decide +kernel

theorem witness_OutputsAndBus_rails : ((panelled { railsUp := true, railAt := some 1000 } (up 9)).panel 1).railsUp = true
    ∧ ((panelled { railsUp := true, railAt := some 1000 } (up 9)).panel 1).railAt = some 1000 ∧ 1000 ≤ (up 9).tick
    ∧ (let s := panelled { railsUp := false, railAt := some 900, railDown := some 999 } (up 9)
       (s.panel 1).railsUp = false ∧ (s.panel 1).railAt = some 900 ∧ (s.panel 1).railDown = some 999 ∧ 900 + 3 ≤ 999 ∧ 999 ≤ s.tick)
    ∧ (let s := fieldOf (fun f => { f with applied := { f.applied with dio := [.on] } }) (epochOf driven (up 9))
       tget 0 s.field.dioOff 0 = 0 ∧ s.field.bands.getD (0 / 8) 0 ≠ 2)
    ∧ (fieldOf (fun f => { f with dioSet := driven.dio.chans }) (up 9)).field.chan 0 = { dir := 2, pwroffHold := true }
    ∧ ((up 9).field.chan 0).dir ≠ 2
    ∧ (let s := panelled { op := some { kind := 1 }, frameAt := some 1000 } (up 9)
       (0 < 2) ∧ (s.panel 0).op.isSome = true ∧ (s.panel 0).frameAt = some s.tick) ∧ 211199 < 211200 ∧ 4 ≤ (up 9).sys.mode := by decide +kernel

/-- Panel B's rails (R412): 3 ms after they begin all are up. -/
theorem test_rails_b : (panelled { railsUp := true, railAt := some 997 } (up 9)).railsB = [true, true, true, true] := by decide +kernel

theorem witness_OutputsAndBus : (fieldOf (fun f => { f with applied := { f.applied with dio := [.duty 4096] } }) (up 9)).field.applied.dio.getD 0 .off = .duty 4096
    ∧ 4096 ≤ 4096 ∧ 99 < 100 ∧ ({ p := 20490, ph := 20489, next := 20490 } : Gen).ph < 20490 ∧ ({ p := 0 } : Gen).p = 0 ∧ (up 9).ticking = true ∧ 31 < 32
    ∧ tget 0 (fieldOf (fun f => { f with dioOff := [(0, 5)], lampOff := [(0, 5)] }) (up 9)).field.dioOff 0 ≠ 0 ∧ tget 0 (up 9).field.dioOff 0 = 0
    ∧ tget 0 (fieldOf (fun f => { f with dioOff := [(0, 5)], lampOff := [(0, 5)] }) (up 9)).field.lampOff 0 ≠ 0 ∧ tget 0 (up 9).field.lampOff 0 = 0
    ∧ (∃ x ∈ [((1000 : Nat), (1 : Nat))], (up 9).tick ≤ x.1 ∧ bit x.2 0 = true) ∧ (∀ a b : Fin 2, (fun _ _ => 3 : Nat → Nat → Nat) a b < 4) ∧ 1023 < 1024 ∧ 767 < 768
    ∧ ((epochOf driven (up 9)).cfg.e.chan 0).dir = 2 ∧ (up 9).field.bands.getD 0 0 ≠ 2 ∧ ((up 9).cfg.e.chan 0).dir ≠ 2
    ∧ ((panelled { op := some { kind := 1 }, frameAt := some 1000 } (up 9)).panel 0).op.isSome = true ∧ ((panelled { frameAt := some 1000 } (up 9)).panel 0).frameAt = some (up 9).tick
    ∧ ((up 9).panel 0).op.isSome = false ∧ ((up 9).panel 1).op.isSome = false ∧ 211200 ≤ 211200 ∧ (worker 9).sys.role = 3 ∧ (up 9).hosted = true ∧ (up 9).hif.released = true := by decide +kernel

def running : Job := { cmd := { here 0x30 with arg1 := 3 }, origin := .ring 0 7, start := 900 }

theorem witness_RunningCommands : running.origin = .ring 0 7
    ∧ (fieldOf (fun f => { f with lampTests := [(999, 0xFFFF, running)] }) (up 9)).field.lampTests = [(999, 0xFFFF, running)] ∧ 999 < (up 9).tick
    ∧ (fieldOf (fun f => { f with survey := some running, lead := some running }) (up 7)).field.survey = some running
    ∧ (fieldOf (fun f => { f with survey := some running }) (up 7)).field.survNext = none ∧ (up 7).ticking = true
    ∧ [({ pin := 0 } : PinSurvey), { pin := 1 }].map (·.pin) = maskPins running.pinMask ∧ [({ a := 0, b := 1 } : PairSurvey)].map (fun y => (y.a, y.b)) = running.pairs
    ∧ ((up 7).ring ((up 7).ring 0).link).live = false ∧ 71 < (surveyResult running 1000 [{ pin := 0 }, { pin := 1 }] [{ a := 0, b := 1 }]).length
    ∧ (fieldOf (fun f => { f with lead := some running, leadV := List.replicate 64 0 }) (up 7)).field.lead = some running ∧ (List.replicate 64 (0 : Int)).length = 64
    ∧ (sysOf (fun y => { y with blkState := 3, blkCode := 2, blkJob := some running }) (up 9)).blockRunning = true
    ∧ (sysOf (fun y => { y with blkState := 3, blkCode := 0x13 }) (up 9)).sys.blkCode = 0x13 ∧ (up 9).sys.powerFail = none ∧ 2 ≤ 2 := by decide +kernel

theorem witness_Console : (sysOf (fun y => { y with variant := 2 }) (up 5)).hasConsole = true ∧ 63 ≤ 63 ∧ 63 < 64 ∧ 1 ≤ 0xFFFE ∧ (sysOf (fun y => { y with variant := 3 }) (up 6)).hasConsole = true
    ∧ (sysOf (fun y => { y with variant := 3 }) (up 6)).sys.variant = 3 ∧ (sysOf (fun y => { y with variant := 2 }) (up 5)).sys.variant ≠ 3 := by decide +kernel

def blackened : State :=
  let s := at_ 0 (linked (up 11))
  { s with net := { s.net with held := [{ cls := 3, len := 64, port := 2, frame := .pdelayReq 0 }] } }

theorem witness_Ticks : (up 5).ticking = true ∧ (at_ 0 (up 12)).ticking = true ∧ (at_ 0 (up 12)).time.phase = 0 ∧ (at_ 1 (up 12)).time.phase = 1
    ∧ (at_ 2 (up 12)).time.phase = 2 ∧ (at_ 3 (up 12)).time.phase ≠ 0 ∧ (holding 33105).time.phase = 0 ∧ ((holding 33105).net.held.map (·.port)) = [2]
    ∧ (∀ p < 2, ((holding 33105).port p).link = true ∧ ((holding 33105).port p).ring = true ∧ ((holding 33105).port p).ns 33105 ≤ 265000)
    ∧ 265000 < ((holding 33106).port 0).ns 33106 ∧ (up 5).hif.jobs = [] ∧ (up 5).field.broke = false ∧ (up 5).inReset 0x13 = false ∧ (up 5).inReset 0x14 = false
    ∧ (∀ p < 2, ((holding 33105).port p).busyTo ≤ 1000000 * (holding 33105).tick + 250000) ∧ (holding 33105).inReset 0x11 = false
    ∧ ({ cls := 1, len := 33105, port := 2, frame := .pdelayReq 0 } : Held).shed 12 = false
    ∧ 1000000 * (holding 33106).tick + 515000 < max (1000000 * (holding 33106).tick + 250000) ((holding 33106).port 0).busyTo + ((holding 33106).port 0).ns 33106
    ∧ (blackened.net.held.map fun h => h.shed blackened.sys.mode) = [true] ∧ blackened.time.phase = 0 := by decide +kernel

def closing : State :=
  let s := at_ 3 (blockAt 65535 { manager 9 3 with time := { (manager 9 3).time with num := 65535 } })
  { s with dec := { s.dec with lastTick := some 65535 } }

theorem witness_Checkpoints : closing.deciding = true ∧ 3 ≤ closing.time.phase ∧ closing.tick % 16 = 15 ∧ closing.work = none
    ∧ closing.dec.lastTick = some closing.tick ∧ (closing.rec_.ckpts.any fun c => c.tick = closing.tick) = false ∧ closing.eng.audit = none
    ∧ closing.eng.repeatDue = none ∧ closing.eng.fault = none ∧ closing.mem.optUse.setB = false
    ∧ ({ closing.mem.optUse with setB := true } : OptBlock).setB = true ∧ closing.domain = true ∧ closing.isAdmitted 63 = true ∧ (up 9).domain = false
    ∧ (domOf (fun d => { d with standbyDev := some 1 }) closing).standbyPresent = true ∧ closing.inReset 0x11 = false := by decide +kernel

end Sys2Proof.Tests
end

section
/-! SUPPORT. The state of a group as its three fields (R213), a table rewritten entry by entry, and the statement on group states (O16). -/

namespace Sys2Proof.Machine

/-! The columns of Table: Point states. -/

theorem isUnack_iff (st : Nat) : isUnack st = true ↔ st = 1 ∨ st = 3 ∨ st = 7 := by simp [isUnack, or_assoc]

theorem isActive_iff (st : Nat) : isActive st = true ↔ st = 1 ∨ st = 2 ∨ st = 7 ∨ st = 8 := by simp [isActive, or_assoc]

/-- The states whose PRIO a group takes are those that are Active or Unacknowledged. -/
theorem isActive_or_isUnack_iff (st : Nat) :
    (isActive st || isUnack st) = true ↔ st = 1 ∨ st = 2 ∨ st = 3 ∨ st = 7 ∨ st = 8 := by
  rw [Bool.or_eq_true, isActive_iff, isUnack_iff]; omega

/-! The three fields of a group state. -/

theorem b2n_le_one (b : Bool) : b2n b ≤ 1 := by cases b <;> decide

theorem b2n_eq_one_iff (b : Bool) : b2n b = 1 ↔ b = true := by cases b <;> decide

/-- The PRIO of the members that are Active or Unacknowledged. -/
def memberPrios (ms : List (Nat × Nat)) : List Nat := (ms.filter fun m => isActive m.1 || isUnack m.1).map Prod.snd

/-- The highest of them, 0 when there are none. -/
def groupPrio (ms : List (Nat × Nat)) : Nat := (memberPrios ms).foldl max 0

theorem mem_memberPrios (ms : List (Nat × Nat)) (v : Nat) :
    v ∈ memberPrios ms ↔ ∃ m ∈ ms, (m.1 = 1 ∨ m.1 = 2 ∨ m.1 = 3 ∨ m.1 = 7 ∨ m.1 = 8) ∧ m.2 = v := by
  simp only [memberPrios, List.mem_map, List.mem_filter, isActive_or_isUnack_iff, and_assoc]

/-- `groupPrio` is the maximum of 0 and the members' PRIO. -/
theorem groupPrio_max (ms : List (Nat × Nat)) :
    groupPrio ms ∈ 0 :: memberPrios ms ∧ ∀ v ∈ 0 :: memberPrios ms, v ≤ groupPrio ms :=
  List.max?_eq_some_iff.mp List.max?_cons'

theorem le_groupPrio {ms : List (Nat × Nat)} {v : Nat} (h : v ∈ memberPrios ms) : v ≤ groupPrio ms :=
  (groupPrio_max ms).2 v (List.mem_cons_of_mem _ h)

theorem groupPrio_eq_zero_or_mem (ms : List (Nat × Nat)) : groupPrio ms = 0 ∨ groupPrio ms ∈ memberPrios ms :=
  List.mem_cons.mp (groupPrio_max ms).1

/-- The model's search for the highest PRIO is the maximum. -/
theorem groupCode_eq (ms : List (Nat × Nat)) :
    groupCode ms = b2n (ms.any fun m => isUnack m.1) + 2 * b2n (ms.any fun m => isActive m.1) + 4 * groupPrio ms := by
  have hmax : ∀ (c : Bool) (p v : Nat), (if c then max p v else p) = if (c && decide (p < v)) = true then v else p := by
    intro c p v
    cases c
    · rfl
    · simp only [if_true, Bool.true_and, decide_eq_true_eq]; split <;> omega
  simp only [groupCode, groupPrio, memberPrios, List.foldl_map, List.foldl_filter, hmax]

theorem groupCode_unack (ms : List (Nat × Nat)) : groupCode ms % 2 = b2n (ms.any fun m => isUnack m.1) := by
  rw [groupCode_eq]
  have := b2n_le_one (ms.any fun m => isUnack m.1)
  omega

theorem groupCode_active (ms : List (Nat × Nat)) : groupCode ms / 2 % 2 = b2n (ms.any fun m => isActive m.1) := by
  rw [groupCode_eq]
  have := b2n_le_one (ms.any fun m => isUnack m.1)
  have := b2n_le_one (ms.any fun m => isActive m.1)
  omega

theorem groupCode_prio (ms : List (Nat × Nat)) : groupCode ms / 4 = groupPrio ms := by
  rw [groupCode_eq]
  have := b2n_le_one (ms.any fun m => isUnack m.1)
  have := b2n_le_one (ms.any fun m => isActive m.1)
  omega

theorem groupCode_unack_iff (ms : List (Nat × Nat)) :
    groupCode ms % 2 = 1 ↔ ∃ m ∈ ms, m.1 = 1 ∨ m.1 = 3 ∨ m.1 = 7 := by
  simp only [groupCode_unack, b2n_eq_one_iff, List.any_eq_true, isUnack_iff]

theorem groupCode_active_iff (ms : List (Nat × Nat)) :
    groupCode ms / 2 % 2 = 1 ↔ ∃ m ∈ ms, m.1 = 1 ∨ m.1 = 2 ∨ m.1 = 7 ∨ m.1 = 8 := by
  simp only [groupCode_active, b2n_eq_one_iff, List.any_eq_true, isActive_iff]

/-- A group state has 4 bits when every PRIO has 2. -/
theorem groupCode_lt {ms : List (Nat × Nat)} (h : ∀ m ∈ ms, m.2 < 4) : groupCode ms < 16 := by
  have hp : groupCode ms / 4 < 4 := by
    rw [groupCode_prio]
    rcases groupPrio_eq_zero_or_mem ms with h0 | hmem
    · omega
    · obtain ⟨m, hm, -, he⟩ := (mem_memberPrios ms _).mp hmem
      exact he ▸ h m hm
  omega

/-! One evaluation of a group. -/

theorem evalGroup_quiet {ms : List (Nat × Nat)} (keys : List (Nat × Nat)) (g : GroupState) (h : groupCode ms = 0) :
    evalGroup ms keys g = {} := by simp only [evalGroup, h, if_true]

/-- Whatever becomes of the first-out, the group takes the state of its members. -/
theorem evalGroup_state (ms keys : List (Nat × Nat)) (g : GroupState) : (evalGroup ms keys g).state = groupCode ms := by
  by_cases h : groupCode ms = 0
  · rw [evalGroup_quiet keys g h, h]
  · simp only [evalGroup, if_neg h]
    split
    · rfl
    · rfl
    · split <;> rfl

/-! A table rewritten entry by entry. -/

variable {α β : Type}

/-- Every key of a sorted table exceeds its bound. -/
theorem lt_key_of_tsorted {lo : Nat} {t : Tbl α} (h : tsorted (some lo) t = true) : ∀ x ∈ t, lo < x.1 := by
  induction t with
  | nil => simp
  | cons e t ih =>
    obtain ⟨j, v⟩ := e
    rw [tsorted_cons, Bool.and_eq_true] at h
    obtain ⟨hj, ht⟩ := h
    intro x hx
    rcases List.mem_cons.mp hx with rfl | hx
    · simpa [keysAbove] using hj
    · exact ih (tsorted_weaken ht hj) x hx

/-- Writing `f` of each entry of a sorted table where the table written to reads `f` of an unlisted entry: every key then reads `f` of
its entry. -/
theorem tget_foldl_tset_map [DecidableEq β] {lo : Option Nat} {t : Tbl α} (h : tsorted lo t = true) (d : α) (d' : β) (f : α → β)
    (acc : Tbl β) (i : Nat) (hacc : tget d' acc i = f d) :
    tget d' (t.foldl (fun m x => tset d' m x.1 (f x.2)) acc) i = f (tget d t i) := by
  induction t generalizing lo acc with
  | nil => exact hacc
  | cons e t ih =>
    obtain ⟨j, v⟩ := e
    rw [tsorted_cons, Bool.and_eq_true] at h
    obtain ⟨-, ht⟩ := h
    simp only [List.foldl_cons, tget]
    split
    · next hji =>
      subst hji
      have hkeys : ∀ x ∈ t, x.1 ≠ j := fun x hx => Nat.ne_of_gt (lt_key_of_tsorted ht x hx)
      rw [tget_foldl_other d' Prod.fst (fun x => f x.2) t _ j hkeys, tget_tset_same]
    · next hji =>
      exact ih ht _ (by rw [tget_tset_other d' acc _ (Ne.symm hji), hacc])

/-! The results of the Gust. -/

theorem tget_groupResults (d : Dec) (h : twf {} d.dgroups = true) (i : Nat) :
    tget 0 (groupResults d) i = (tget {} d.dgroups i).state % 4 := by
  simp only [twf, Bool.and_eq_true] at h
  obtain ⟨hsorted, -⟩ := h
  exact tget_foldl_tset_map hsorted {} 0 (fun g : GroupState => g.state % 4) [] i rfl

/-- The Gust of the serving module carries the groups of the tick in progress once it is decided. -/
theorem gustResults_of_decided {s : State} (hd : s.decides = true) (hs : s.servingAt s.tick = true) (hl : s.dec.lastTick = some s.tick) :
    (gustResults s).1 = groupResults s.dec := by simp [gustResults, hd, hs, hl]

/-- Settles O16: the fields of a group state are read off its sum, its PRIO is the maximum over the members that count, and the fold
that makes the Gust's results reads back entry by entry because the table's keys rise. -/
theorem groupStates : Obligations.GroupStates := by
  unfold Obligations.GroupStates
  intro ms keys g s i
  refine ⟨groupCode_lt, groupCode_unack_iff ms, groupCode_active_iff ms, ?_, ?_, evalGroup_state ms keys g, evalGroup_quiet keys g, ?_⟩
  · intro m hm hst
    rw [groupCode_prio]
    exact le_groupPrio ((mem_memberPrios ms _).mpr ⟨m, hm, hst, rfl⟩)
  · rw [groupCode_prio, ← mem_memberPrios]
    exact groupPrio_eq_zero_or_mem ms
  · intro hd hs hl hwf
    rw [gustResults_of_decided hd hs hl]
    exact tget_groupResults s.dec hwf i

end Sys2Proof.Machine
end

section
/-! SUPPORT. What each step of Squall on a session does to its call and its watch, and the statement on how a call starts and ends (O18). -/

namespace Sys2Proof.Machine

/-! The action outcomes and the duty (R244, R245): neither touches TIER or WK. -/

@[simp] theorem SessState.nextGen_tier (q : SessState) (n : Nat) : (q.nextGen n).tier = q.tier := rfl

theorem setDuty_call (n s k : Nat) (q : SessState) (en : Bool) :
    (setDuty n s k q en).1.tier = q.tier ∧ (setDuty n s k q en).1.wk = q.wk := by
  unfold setDuty
  split
  · exact ⟨rfl, rfl⟩
  · dsimp only
    split <;> exact ⟨rfl, rfl⟩

theorem callInput_call (n s : Nat) (en : Bool) (x : SessState × List Ev) (i : CallIn) :
    (callInput n s en x i).1.tier = x.1.tier ∧ (callInput n s en x i).1.wk = x.1.wk := by
  cases i with
  | duty t k =>
    dsimp only [callInput]
    split
    · exact setDuty_call n s k x.1 en
    · exact ⟨rfl, rfl⟩
  | wkReset t => exact ⟨rfl, rfl⟩
  | _ =>
    dsimp only [callInput]
    split <;> exact ⟨rfl, rfl⟩

theorem callInputs_call (n s : Nat) (en : Bool) (ins : List CallIn) (x : SessState × List Ev) :
    (ins.foldl (callInput n s en) x).1.tier = x.1.tier ∧ (ins.foldl (callInput n s en) x).1.wk = x.1.wk := by
  induction ins generalizing x with
  | nil => exact ⟨rfl, rfl⟩
  | cons i ins ih =>
    obtain ⟨htier, hwk⟩ := ih (callInput n s en x i)
    obtain ⟨htier₁, hwk₁⟩ := callInput_call n s en x i
    exact ⟨htier.trans htier₁, hwk.trans hwk₁⟩

/-! The watchkeeper step (R246, R247). -/

@[simp] theorem wkCall_wk (n : Nat) (q : SessState) : (wkCall n q).wk = 3 := by
  unfold wkCall
  dsimp only
  split <;> rfl

theorem two_le_wkCall_tier (n : Nat) (q : SessState) : 2 ≤ (wkCall n q).tier := by
  unfold wkCall
  dsimp only
  split
  · exact Nat.le_refl 2
  · next h => exact Nat.not_lt.mp h

/-- The watch touches TIER only as a watchkeeper call starts, and then leaves it at 2 or above. -/
theorem wkStep_tier (c : SessionCfg) (n s arm : Nat) (reset : Bool) (q : SessState) :
    (wkStep c n s arm reset q).1.tier = q.tier
      ∨ ((wkStep c n s arm reset q).1.wk = 3 ∧ q.wk ≠ 3 ∧ 2 ≤ (wkStep c n s arm reset q).1.tier) := by
  simp only [wkStep]
  split; · exact .inl rfl
  split; · exact .inl rfl
  split; · exact .inl rfl
  split; · exact .inl rfl
  split; · exact .inl rfl
  split
  · next hcounts =>
    have hwk : q.wk ≠ 3 := by
      simp only [Bool.or_eq_true, decide_eq_true_eq] at hcounts
      omega
    split
    · exact .inr ⟨wkCall_wk .., hwk, two_le_wkCall_tier ..⟩
    · split <;> exact .inl rfl
  · exact .inl rfl

/-! The tier step (R238). -/

section
variable (c : SessionCfg) (n s : Nat) (newAlarm : Bool)

@[simp] theorem tierStep_wk (demand : Bool) (q : SessState) : (tierStep c n s demand newAlarm q).1.wk = q.wk := by
  simp only [tierStep]
  split
  · split <;> rfl
  · split
    · rfl
    · split <;> split <;> rfl

variable {demand : Bool} {q : SessState}

theorem tierStep_tier_of_start (hdemand : demand = true) (h : q.tier = 0) : (tierStep c n s demand newAlarm q).1.tier = 1 := by
  simp [tierStep, hdemand, h]

theorem tierStep_tier_of_end (hdemand : demand = false) (hwk : q.wk ≠ 3) : (tierStep c n s demand newAlarm q).1.tier = 0 := by
  by_cases h : q.tier = 0 <;> simp [tierStep, hdemand, h, hwk]

/-- A call that is demanded or is a watchkeeper call keeps its tier or goes on to the next. -/
theorem le_tierStep_tier (hstands : demand = true ∨ q.wk = 3) : q.tier ≤ (tierStep c n s demand newAlarm q).1.tier := by
  by_cases h : q.tier = 0
  · exact h ▸ Nat.zero_le _
  · have hgoes : ¬ (!demand && decide (q.wk ≠ 3)) = true := by
      rcases hstands with hdemand | hwk <;> simp [*]
    simp only [tierStep, if_neg h, if_neg hgoes]
    split
    all_goals
      split
      · exact Nat.le_succ q.tier
      · exact Nat.le_refl q.tier

/-- Once the tier step is done, a session that is demanded has a call. -/
theorem one_le_tierStep_tier (hdemand : demand = true) : 1 ≤ (tierStep c n s demand newAlarm q).1.tier := by
  by_cases h : q.tier = 0
  · exact Nat.le_of_eq (tierStep_tier_of_start c n s newAlarm hdemand h).symm
  · exact Nat.le_trans (Nat.one_le_iff_ne_zero.mpr h) (le_tierStep_tier c n s newAlarm (.inl hdemand))

end

/-! A session's evaluation (R227). -/

/-- Some binding of session `s` demands a call (R237). -/
def Demanded (e : Epoch) (d : Dec) (s : Nat) : Prop := ∃ b ∈ e.call.binds, b.session = s ∧ bindDemands d b = true

theorem filter_bindDemands_ne_nil (e : Epoch) (d : Dec) (s : Nat) :
    (e.call.binds.filter fun b => b.session = s).filter (bindDemands d) ≠ [] ↔ Demanded e d s := by
  simp [Demanded, and_comm]

/-- Of the work, a session's evaluation writes that session and adds events. -/
theorem evalSession_write (e : Epoch) (n : Nat) (w : Work) (s : Nat) :
    ∃ q evs, evalSession e n w s = { w with d := { w.d with sessions := tset {} w.d.sessions s q }, evs := evs } := by
  unfold evalSession
  dsimp only
  split <;> exact ⟨_, _, rfl⟩

/-- Session `s` once its action outcomes and the duty that it follows are taken (R244, R252). -/
def actedSession (e : Epoch) (n : Nat) (w : Work) (s : Nat) : SessState :=
  let q := (w.callIns.foldl (callInput n s (e.sess s).enable) (tget {} w.d.sessions s, [])).1
  (if (e.sess s).follow then setDuty n s (dutyAfter w.d w.callIns (e.sess s).dutyFrom) q else (q, [])).1

theorem actedSession_call (e : Epoch) (n : Nat) (w : Work) (s : Nat) :
    (actedSession e n w s).tier = (tget {} w.d.sessions s).tier ∧ (actedSession e n w s).wk = (tget {} w.d.sessions s).wk := by
  obtain ⟨htier, hwk⟩ := callInputs_call n s (e.sess s).enable w.callIns (tget {} w.d.sessions s, [])
  unfold actedSession
  dsimp only
  split
  · exact ⟨(setDuty_call ..).1.trans htier, (setDuty_call ..).2.trans hwk⟩
  · exact ⟨htier, hwk⟩

/-- An enabled session goes on to the watchkeeper step and the tier step, on the demand of its bindings. -/
theorem evalSession_steps {e : Epoch} (n : Nat) (w : Work) {s : Nat} (h : (e.sess s).enable = true) :
    ∃ (arm : Nat) (reset demand newAlarm : Bool), (demand = true ↔ Demanded e w.d s)
      ∧ (tget {} (evalSession e n w s).d.sessions s).tier
        = (tierStep (e.sess s) n s demand newAlarm (wkStep (e.sess s) n s arm reset (actedSession e n w s)).1).1.tier
      ∧ (tget {} (evalSession e n w s).d.sessions s).wk = (wkStep (e.sess s) n s arm reset (actedSession e n w s)).1.wk := by
  refine ⟨?arm, ?reset, ?demand, ?newAlarm, ?hdemand, ?htier, ?hwk⟩
  case htier =>
    simp only [evalSession, h, Bool.not_true, Bool.false_eq_true, if_false, tget_tset_same]
    rw [actedSession, h]
  case hdemand => exact decide_eq_true_iff.trans (filter_bindDemands_ne_nil e w.d s)
  case hwk =>
    simp only [evalSession, h, Bool.not_true, Bool.false_eq_true, if_false, tget_tset_same, tierStep_wk]
    rw [actedSession, h]

/-! How a call starts and ends (R239). -/

theorem evalSession_demanded {e : Epoch} (n : Nat) {w : Work} {s : Nat} (h : (e.sess s).enable = true) (hd : Demanded e w.d s) :
    1 ≤ (tget {} (evalSession e n w s).d.sessions s).tier := by
  obtain ⟨arm, reset, demand, newAlarm, hdemand, htier, -⟩ := evalSession_steps n w h
  rw [htier]
  exact one_le_tierStep_tier _ _ _ _ (hdemand.mpr hd)

/-- A call stands on in a tick that leaves a watchkeeper call standing. -/
theorem evalSession_stands {e : Epoch} (n : Nat) {w : Work} {s : Nat} (h : (e.sess s).enable = true)
    (hcall : 1 ≤ (tget {} w.d.sessions s).tier) (hwk : (tget {} (evalSession e n w s).d.sessions s).wk = 3) :
    1 ≤ (tget {} (evalSession e n w s).d.sessions s).tier := by
  obtain ⟨arm, reset, demand, newAlarm, -, htier, hwk'⟩ := evalSession_steps n w h
  obtain ⟨hq, -⟩ := actedSession_call e n w s
  rw [hwk'] at hwk
  rw [htier]
  have hm : 1 ≤ (wkStep (e.sess s) n s arm reset (actedSession e n w s)).1.tier := by
    rcases wkStep_tier (e.sess s) n s arm reset (actedSession e n w s) with hsame | ⟨-, -, htwo⟩ <;> omega
  exact Nat.le_trans hm (le_tierStep_tier _ _ _ _ (.inr hwk))

theorem evalSession_ends {e : Epoch} (n : Nat) {w : Work} {s : Nat} (h : (e.sess s).enable = true) (hd : ¬ Demanded e w.d s)
    (hwk : (tget {} (evalSession e n w s).d.sessions s).wk ≠ 3) : (tget {} (evalSession e n w s).d.sessions s).tier = 0 := by
  obtain ⟨arm, reset, demand, newAlarm, hdemand, htier, hwk'⟩ := evalSession_steps n w h
  rw [hwk'] at hwk
  rw [htier]
  exact tierStep_tier_of_end _ _ _ _ (Bool.eq_false_iff.mpr (mt hdemand.mp hd)) hwk

/-- A demand with no call standing starts one at tier 1 in every tick but that in which a watchkeeper call starts, whatever else
becomes of the watch. -/
theorem evalSession_starts {e : Epoch} (n : Nat) {w : Work} {s : Nat} (h : (e.sess s).enable = true) (hd : Demanded e w.d s)
    (hcall : (tget {} w.d.sessions s).tier = 0)
    (hwk : (tget {} (evalSession e n w s).d.sessions s).wk = 3 → (tget {} w.d.sessions s).wk = 3) :
    (tget {} (evalSession e n w s).d.sessions s).tier = 1 := by
  obtain ⟨arm, reset, demand, newAlarm, hdemand, htier, hwk'⟩ := evalSession_steps n w h
  obtain ⟨hq, hqwk⟩ := actedSession_call e n w s
  rw [hwk', ← hqwk] at hwk
  rw [htier]
  have hm : (wkStep (e.sess s) n s arm reset (actedSession e n w s)).1.tier = 0 := by
    rcases wkStep_tier (e.sess s) n s arm reset (actedSession e n w s) with hsame | ⟨hthree, hne, -⟩
    · rw [hsame, hq, hcall]
    · exact absurd (hwk hthree) hne
  exact tierStep_tier_of_start _ _ _ _ (hdemand.mpr hd) hm

/-! What ends no call (R239). -/

theorem applyDuty_sessions (e : Epoch) (serving : Bool) (g : GustInput) (w : Work) :
    (applyDuty e serving g w).d.sessions = w.d.sessions := by
  unfold applyDuty
  dsimp only
  split <;> rfl

theorem epochSession_other (old : Option Epoch) (e : Epoch) (w : Work) {i j : Nat} (h : j ≠ i) :
    tget {} (epochSession old e w j).d.sessions i = tget {} w.d.sessions i := by
  cases old with
  | none => exact tget_tset_other {} w.d.sessions _ h.symm
  | some o =>
    by_cases hc : sessionChanged o e j = true
    · simp only [epochSession, hc, if_true]
      exact tget_tset_other {} w.d.sessions _ h.symm
    · simp only [epochSession, if_neg hc]

/-- Settles O18: the watch touches TIER only where a watchkeeper call starts, so the tier step decides, on the demand and the watch, whether
the call starts, stands or ends. -/
theorem squallCalls : Obligations.SquallCalls := by
  unfold Obligations.SquallCalls
  rintro e n w w' i q r hot hen rfl rfl rfl hhot
  have hd : hot ↔ Demanded e w.d i := hhot
  obtain ⟨x, evs, hwrite⟩ := evalSession_write e n w i
  refine ⟨fun h => evalSession_demanded n hen (hd.mp h), fun hcall h0 => ⟨fun h => ?_, fun hwk => ?_⟩,
    fun _ h hwk => evalSession_ends n hen (mt hd.mpr h) hwk,
    fun h0 h hwk => evalSession_starts n hen (hd.mp h) h0 hwk.symm.trans,
    fun sv g => ⟨rfl, applyDuty_sessions e sv g w⟩, fun old j hj => epochSession_other old e w hj, fun j hj => ?_, ?_, ?_⟩
  · exact Nat.ne_of_gt (evalSession_demanded n hen (hd.mp h)) h0
  · exact Nat.ne_of_gt (evalSession_stands n hen hcall hwk) h0
  · rw [hwrite]
    exact tget_tset_other {} w.d.sessions x hj
  · rw [hwrite]
  · rw [hwrite]

end Sys2Proof.Machine
end
